-- ==== Sys2Proof/Word.lean ====
section
/-! DEFINITION. The word types of the 80386 (20_memory.md R141, R143): bytes, words, doublewords and
the three operand sizes. -/

namespace Sys2Proof

/-- A byte, 8 bits. -/
abbrev Byte := BitVec 8
/-- A word, 16 bits. -/
abbrev Word := BitVec 16
/-- A doubleword, 32 bits. -/
abbrev Dword := BitVec 32

/-- The three operand widths of 20_memory.md R143. -/
inductive Size where
  | s8
  | s16
  | s32
  deriving DecidableEq, Repr

/-- How many bits an operand of this width has. -/
@[reducible] def Size.bits : Size → Nat
  | .s8 => 8
  | .s16 => 16
  | .s32 => 32

/-- How many bytes an operand of this width has. -/
@[reducible] def Size.bytes : Size → Nat
  | .s8 => 1
  | .s16 => 2
  | .s32 => 4

end Sys2Proof
end

