-- ==== Sys2Proof/Syntax.lean ====
section
/-! DEFINITION. The abstract syntax of the 80386: one constructor of `Instr` per row of
spec/opcode_table.json (30_encoding.md R345, R346), with the operands its format string names (R340).
A prefix row is a constructor of its own: prefixes and the instruction they stand before form one list of items
(R305). -/

namespace Sys2Proof

/-- The eight general registers, in encoding order (10_state.md R44). As a word operand each name stands for its
low half. -/
inductive Gpr where
  | eax | ecx | edx | ebx | esp | ebp | esi | edi
  deriving DecidableEq, Repr

/-- The eight byte registers, in encoding order (10_state.md R44). -/
inductive Reg8 where
  | al | cl | dl | bl | ah | ch | dh | bh
  deriving DecidableEq, Repr

/-- The six segment registers, in encoding order (10_state.md R44). -/
inductive Sreg where
  | es | cs | ss | ds | fs | gs
  deriving DecidableEq, Repr

/-- The sixteen conditions of Jcc and SETcc, in encoding order (42_logic_shift_bit.md R523). -/
inductive Cond where
  | o | no | b | ae | e | ne | be | a | s | ns | p | np | l | ge | le | g
  deriving DecidableEq, Repr

/-- The displacement of a 16-bit addressing form (30_encoding.md R323): none, one byte, one word. -/
inductive Disp16 where
  | none
  | d8 (b : Byte)
  | d16 (w : Word)
  deriving DecidableEq, Repr

/-- The displacement of a 32-bit addressing form (30_encoding.md R321): none, one byte, one doubleword. -/
inductive Disp32 where
  | none
  | d8 (b : Byte)
  | d32 (d : Dword)
  deriving DecidableEq, Repr

/-- The base of a 16-bit addressing form, in encoding order of `rm` (30_encoding.md R323). -/
inductive Base16 where
  | bxsi | bxdi | bpsi | bpdi | si | di | bp | bx
  deriving DecidableEq, Repr

/-- A memory operand with 16-bit addressing (30_encoding.md R323). -/
inductive Mem16 where
  /-- `[disp16]`: mod 0, rm 6. -/
  | direct (d : Word)
  /-- A base form with an optional displacement. -/
  | based (b : Base16) (d : Disp16)
  deriving DecidableEq, Repr

/-- A memory operand with 32-bit addressing (30_encoding.md R321, R322). -/
inductive Mem32 where
  /-- `[disp32]`: mod 0, rm 5. -/
  | direct (d : Dword)
  /-- One base register, no SIB byte. -/
  | based (r : Gpr) (d : Disp32)
  /-- A SIB byte with a base register; the index number of ESP means no index. -/
  | sib (ss : BitVec 2) (index base : Gpr) (d : Disp32)
  /-- A SIB byte with `base` 5 and mod 0: a doubleword displacement and no base register. -/
  | sibNoBase (ss : BitVec 2) (index : Gpr) (d : Dword)
  deriving DecidableEq, Repr

/-- A memory operand (30_encoding.md R330), by address size. -/
inductive Mem where
  | m16 (m : Mem16)
  | m32 (m : Mem32)
  deriving DecidableEq, Repr

/-- An `E` operand (30_encoding.md R340): a register of kind `R`, or memory. -/
inductive RM (R : Type) where
  | reg (r : R)
  | mem (m : Mem)
  deriving DecidableEq, Repr

/-- One 80386 instruction, or one prefix. Constructors with operands come first, each group in the table's
order. None is a memory fence: jumps order fetch and writes of CR3 order translation (20_memory.md R242). -/
inductive Instr where
  /-- ADD Eb,Gb: 00 (R451). -/
  | addEbGb (e : RM Reg8) (g : Reg8)
  /-- ADD Ev,Gv: 01 (R451). -/
  | addEvGv (e : RM Gpr) (g : Gpr)
  /-- ADD Gb,Eb: 02 (R451). -/
  | addGbEb (g : Reg8) (e : RM Reg8)
  /-- ADD Gv,Ev: 03 (R451). -/
  | addGvEv (g : Gpr) (e : RM Gpr)
  /-- ADD AL,Ib: 04 (R451). -/
  | addALIb (ib : Byte)
  /-- ADD eAX,Iv: 05 (R451). -/
  | addEAXIv (iv : Dword)
  /-- OR Eb,Gb: 08 (R502). -/
  | orEbGb (e : RM Reg8) (g : Reg8)
  /-- OR Ev,Gv: 09 (R502). -/
  | orEvGv (e : RM Gpr) (g : Gpr)
  /-- OR Gb,Eb: 0A (R502). -/
  | orGbEb (g : Reg8) (e : RM Reg8)
  /-- OR Gv,Ev: 0B (R502). -/
  | orGvEv (g : Gpr) (e : RM Gpr)
  /-- OR AL,Ib: 0C (R502). -/
  | orALIb (ib : Byte)
  /-- OR eAX,Iv: 0D (R502). -/
  | orEAXIv (iv : Dword)
  /-- ADC Eb,Gb: 10 (R452). -/
  | adcEbGb (e : RM Reg8) (g : Reg8)
  /-- ADC Ev,Gv: 11 (R452). -/
  | adcEvGv (e : RM Gpr) (g : Gpr)
  /-- ADC Gb,Eb: 12 (R452). -/
  | adcGbEb (g : Reg8) (e : RM Reg8)
  /-- ADC Gv,Ev: 13 (R452). -/
  | adcGvEv (g : Gpr) (e : RM Gpr)
  /-- ADC AL,Ib: 14 (R452). -/
  | adcALIb (ib : Byte)
  /-- ADC eAX,Iv: 15 (R452). -/
  | adcEAXIv (iv : Dword)
  /-- SBB Eb,Gb: 18 (R454). -/
  | sbbEbGb (e : RM Reg8) (g : Reg8)
  /-- SBB Ev,Gv: 19 (R454). -/
  | sbbEvGv (e : RM Gpr) (g : Gpr)
  /-- SBB Gb,Eb: 1A (R454). -/
  | sbbGbEb (g : Reg8) (e : RM Reg8)
  /-- SBB Gv,Ev: 1B (R454). -/
  | sbbGvEv (g : Gpr) (e : RM Gpr)
  /-- SBB AL,Ib: 1C (R454). -/
  | sbbALIb (ib : Byte)
  /-- SBB eAX,Iv: 1D (R454). -/
  | sbbEAXIv (iv : Dword)
  /-- AND Eb,Gb: 20 (R501). -/
  | andEbGb (e : RM Reg8) (g : Reg8)
  /-- AND Ev,Gv: 21 (R501). -/
  | andEvGv (e : RM Gpr) (g : Gpr)
  /-- AND Gb,Eb: 22 (R501). -/
  | andGbEb (g : Reg8) (e : RM Reg8)
  /-- AND Gv,Ev: 23 (R501). -/
  | andGvEv (g : Gpr) (e : RM Gpr)
  /-- AND AL,Ib: 24 (R501). -/
  | andALIb (ib : Byte)
  /-- AND eAX,Iv: 25 (R501). -/
  | andEAXIv (iv : Dword)
  /-- SUB Eb,Gb: 28 (R453). -/
  | subEbGb (e : RM Reg8) (g : Reg8)
  /-- SUB Ev,Gv: 29 (R453). -/
  | subEvGv (e : RM Gpr) (g : Gpr)
  /-- SUB Gb,Eb: 2A (R453). -/
  | subGbEb (g : Reg8) (e : RM Reg8)
  /-- SUB Gv,Ev: 2B (R453). -/
  | subGvEv (g : Gpr) (e : RM Gpr)
  /-- SUB AL,Ib: 2C (R453). -/
  | subALIb (ib : Byte)
  /-- SUB eAX,Iv: 2D (R453). -/
  | subEAXIv (iv : Dword)
  /-- XOR Eb,Gb: 30 (R503). -/
  | xorEbGb (e : RM Reg8) (g : Reg8)
  /-- XOR Ev,Gv: 31 (R503). -/
  | xorEvGv (e : RM Gpr) (g : Gpr)
  /-- XOR Gb,Eb: 32 (R503). -/
  | xorGbEb (g : Reg8) (e : RM Reg8)
  /-- XOR Gv,Ev: 33 (R503). -/
  | xorGvEv (g : Gpr) (e : RM Gpr)
  /-- XOR AL,Ib: 34 (R503). -/
  | xorALIb (ib : Byte)
  /-- XOR eAX,Iv: 35 (R503). -/
  | xorEAXIv (iv : Dword)
  /-- CMP Eb,Gb: 38 (R455). -/
  | cmpEbGb (e : RM Reg8) (g : Reg8)
  /-- CMP Ev,Gv: 39 (R455). -/
  | cmpEvGv (e : RM Gpr) (g : Gpr)
  /-- CMP Gb,Eb: 3A (R455). -/
  | cmpGbEb (g : Reg8) (e : RM Reg8)
  /-- CMP Gv,Ev: 3B (R455). -/
  | cmpGvEv (g : Gpr) (e : RM Gpr)
  /-- CMP AL,Ib: 3C (R455). -/
  | cmpALIb (ib : Byte)
  /-- CMP eAX,Iv: 3D (R455). -/
  | cmpEAXIv (iv : Dword)
  /-- INC rv: 40 + r (R456). -/
  | incRv (r : Gpr)
  /-- DEC rv: 48 + r (R457). -/
  | decRv (r : Gpr)
  /-- PUSH rv: 50 + r (R406). -/
  | pushRv (r : Gpr)
  /-- POP rv: 58 + r (R408). -/
  | popRv (r : Gpr)
  /-- BOUND Gv,Ma: 62 (R615). -/
  | boundGvMa (g : Gpr) (m : Mem)
  /-- ARPL Ew,Gw: 63 (R815). -/
  | arplEwGw (e : RM Gpr) (g : Gpr)
  /-- PUSH Iv: 68 (R406). -/
  | pushIv (iv : Dword)
  /-- IMUL Gv,Ev,Iv: 69 (R461). -/
  | imulGvEvIv (g : Gpr) (e : RM Gpr) (iv : Dword)
  /-- PUSH Ib: 6A (R406). -/
  | pushIb (ib : Byte)
  /-- IMUL Gv,Ev,Ib: 6B (R461). -/
  | imulGvEvIb (g : Gpr) (e : RM Gpr) (ib : Byte)
  /-- Jcc Jb: 70 + cc (R563). -/
  | jccJb (cc : Cond) (jb : Byte)
  /-- ADD Eb,Ib: 80 /0 (R451). -/
  | addEbIb (e : RM Reg8) (ib : Byte)
  /-- ADD Ev,Iv: 81 /0 (R451). -/
  | addEvIv (e : RM Gpr) (iv : Dword)
  /-- ADD Ev,Ib: 83 /0 (R451). -/
  | addEvIb (e : RM Gpr) (ib : Byte)
  /-- OR Eb,Ib: 80 /1 (R502). -/
  | orEbIb (e : RM Reg8) (ib : Byte)
  /-- OR Ev,Iv: 81 /1 (R502). -/
  | orEvIv (e : RM Gpr) (iv : Dword)
  /-- OR Ev,Ib: 83 /1 (R502). -/
  | orEvIb (e : RM Gpr) (ib : Byte)
  /-- ADC Eb,Ib: 80 /2 (R452). -/
  | adcEbIb (e : RM Reg8) (ib : Byte)
  /-- ADC Ev,Iv: 81 /2 (R452). -/
  | adcEvIv (e : RM Gpr) (iv : Dword)
  /-- ADC Ev,Ib: 83 /2 (R452). -/
  | adcEvIb (e : RM Gpr) (ib : Byte)
  /-- SBB Eb,Ib: 80 /3 (R454). -/
  | sbbEbIb (e : RM Reg8) (ib : Byte)
  /-- SBB Ev,Iv: 81 /3 (R454). -/
  | sbbEvIv (e : RM Gpr) (iv : Dword)
  /-- SBB Ev,Ib: 83 /3 (R454). -/
  | sbbEvIb (e : RM Gpr) (ib : Byte)
  /-- AND Eb,Ib: 80 /4 (R501). -/
  | andEbIb (e : RM Reg8) (ib : Byte)
  /-- AND Ev,Iv: 81 /4 (R501). -/
  | andEvIv (e : RM Gpr) (iv : Dword)
  /-- AND Ev,Ib: 83 /4 (R501). -/
  | andEvIb (e : RM Gpr) (ib : Byte)
  /-- SUB Eb,Ib: 80 /5 (R453). -/
  | subEbIb (e : RM Reg8) (ib : Byte)
  /-- SUB Ev,Iv: 81 /5 (R453). -/
  | subEvIv (e : RM Gpr) (iv : Dword)
  /-- SUB Ev,Ib: 83 /5 (R453). -/
  | subEvIb (e : RM Gpr) (ib : Byte)
  /-- XOR Eb,Ib: 80 /6 (R503). -/
  | xorEbIb (e : RM Reg8) (ib : Byte)
  /-- XOR Ev,Iv: 81 /6 (R503). -/
  | xorEvIv (e : RM Gpr) (iv : Dword)
  /-- XOR Ev,Ib: 83 /6 (R503). -/
  | xorEvIb (e : RM Gpr) (ib : Byte)
  /-- CMP Eb,Ib: 80 /7 (R455). -/
  | cmpEbIb (e : RM Reg8) (ib : Byte)
  /-- CMP Ev,Iv: 81 /7 (R455). -/
  | cmpEvIv (e : RM Gpr) (iv : Dword)
  /-- CMP Ev,Ib: 83 /7 (R455). -/
  | cmpEvIb (e : RM Gpr) (ib : Byte)
  /-- TEST Eb,Gb: 84 (R505). -/
  | testEbGb (e : RM Reg8) (g : Reg8)
  /-- TEST Ev,Gv: 85 (R505). -/
  | testEvGv (e : RM Gpr) (g : Gpr)
  /-- XCHG Eb,Gb: 86 (R405). -/
  | xchgEbGb (e : RM Reg8) (g : Reg8)
  /-- XCHG Ev,Gv: 87 (R405). -/
  | xchgEvGv (e : RM Gpr) (g : Gpr)
  /-- MOV Eb,Gb: 88 (R403). -/
  | movEbGb (e : RM Reg8) (g : Reg8)
  /-- MOV Ev,Gv: 89 (R403). -/
  | movEvGv (e : RM Gpr) (g : Gpr)
  /-- MOV Gb,Eb: 8A (R403). -/
  | movGbEb (g : Reg8) (e : RM Reg8)
  /-- MOV Gv,Ev: 8B (R403). -/
  | movGvEv (g : Gpr) (e : RM Gpr)
  /-- MOV Ew,Sw: 8C (R404). -/
  | movEwSw (e : RM Gpr) (sr : Sreg)
  /-- LEA Gv,M: 8D (R416). -/
  | leaGvM (g : Gpr) (m : Mem)
  /-- MOV Sw,Ew: 8E (R404). -/
  | movSwEw (sr : Sreg) (e : RM Gpr)
  /-- POP Ev: 8F /0 (R408). -/
  | popEv (e : RM Gpr)
  /-- XCHG eAX,rv: 90 + r (R405). -/
  | xchgEAXRv (r : Gpr)
  /-- CALL Ap: 9A (R577). -/
  | callAp (off : Dword) (sel : Word)
  /-- MOV AL,Ob: A0 (R403). -/
  | movALOb (o : Dword)
  /-- MOV eAX,Ov: A1 (R403). -/
  | movEAXOv (o : Dword)
  /-- MOV Ob,AL: A2 (R403). -/
  | movObAL (o : Dword)
  /-- MOV Ov,eAX: A3 (R403). -/
  | movOvEAX (o : Dword)
  /-- TEST AL,Ib: A8 (R505). -/
  | testALIb (ib : Byte)
  /-- TEST eAX,Iv: A9 (R505). -/
  | testEAXIv (iv : Dword)
  /-- MOV rb,Ib: B0 + r (R403). -/
  | movRbIb (r : Reg8) (ib : Byte)
  /-- MOV rv,Iv: B8 + r (R403). -/
  | movRvIv (r : Gpr) (iv : Dword)
  /-- ROL Eb,Ib: C0 /0 (R510). -/
  | rolEbIb (e : RM Reg8) (ib : Byte)
  /-- ROL Ev,Ib: C1 /0 (R510). -/
  | rolEvIb (e : RM Gpr) (ib : Byte)
  /-- ROR Eb,Ib: C0 /1 (R511). -/
  | rorEbIb (e : RM Reg8) (ib : Byte)
  /-- ROR Ev,Ib: C1 /1 (R511). -/
  | rorEvIb (e : RM Gpr) (ib : Byte)
  /-- RCL Eb,Ib: C0 /2 (R512). -/
  | rclEbIb (e : RM Reg8) (ib : Byte)
  /-- RCL Ev,Ib: C1 /2 (R512). -/
  | rclEvIb (e : RM Gpr) (ib : Byte)
  /-- RCR Eb,Ib: C0 /3 (R513). -/
  | rcrEbIb (e : RM Reg8) (ib : Byte)
  /-- RCR Ev,Ib: C1 /3 (R513). -/
  | rcrEvIb (e : RM Gpr) (ib : Byte)
  /-- SHL_SAL Eb,Ib: C0 /4 (R507). -/
  | shlEbIb (e : RM Reg8) (ib : Byte)
  /-- SHL_SAL Ev,Ib: C1 /4 (R507). -/
  | shlEvIb (e : RM Gpr) (ib : Byte)
  /-- SHR Eb,Ib: C0 /5 (R508). -/
  | shrEbIb (e : RM Reg8) (ib : Byte)
  /-- SHR Ev,Ib: C1 /5 (R508). -/
  | shrEvIb (e : RM Gpr) (ib : Byte)
  /-- SAR Eb,Ib: C0 /7 (R509). -/
  | sarEbIb (e : RM Reg8) (ib : Byte)
  /-- SAR Ev,Ib: C1 /7 (R509). -/
  | sarEvIb (e : RM Gpr) (ib : Byte)
  /-- RET Iw: C2 (R570). -/
  | retIw (iw : Word)
  /-- LES Gv,Mp: C4 (R418). -/
  | lesGvMp (g : Gpr) (m : Mem)
  /-- LDS Gv,Mp: C5 (R418). -/
  | ldsGvMp (g : Gpr) (m : Mem)
  /-- MOV Eb,Ib: C6 /0 (R403). -/
  | movEbIb (e : RM Reg8) (ib : Byte)
  /-- MOV Ev,Iv: C7 /0 (R403). -/
  | movEvIv (e : RM Gpr) (iv : Dword)
  /-- ENTER Iw,Ib: C8 (R616). -/
  | enterIwIb (iw : Word) (ib : Byte)
  /-- RETF Iw: CA (R578). -/
  | retfIw (iw : Word)
  /-- INT Ib: CD (R605). -/
  | intIb (ib : Byte)
  /-- ROL Eb,1: D0 /0 (R510). -/
  | rolEb1 (e : RM Reg8)
  /-- ROL Ev,1: D1 /0 (R510). -/
  | rolEv1 (e : RM Gpr)
  /-- ROL Eb,CL: D2 /0 (R510). -/
  | rolEbCL (e : RM Reg8)
  /-- ROL Ev,CL: D3 /0 (R510). -/
  | rolEvCL (e : RM Gpr)
  /-- ROR Eb,1: D0 /1 (R511). -/
  | rorEb1 (e : RM Reg8)
  /-- ROR Ev,1: D1 /1 (R511). -/
  | rorEv1 (e : RM Gpr)
  /-- ROR Eb,CL: D2 /1 (R511). -/
  | rorEbCL (e : RM Reg8)
  /-- ROR Ev,CL: D3 /1 (R511). -/
  | rorEvCL (e : RM Gpr)
  /-- RCL Eb,1: D0 /2 (R512). -/
  | rclEb1 (e : RM Reg8)
  /-- RCL Ev,1: D1 /2 (R512). -/
  | rclEv1 (e : RM Gpr)
  /-- RCL Eb,CL: D2 /2 (R512). -/
  | rclEbCL (e : RM Reg8)
  /-- RCL Ev,CL: D3 /2 (R512). -/
  | rclEvCL (e : RM Gpr)
  /-- RCR Eb,1: D0 /3 (R513). -/
  | rcrEb1 (e : RM Reg8)
  /-- RCR Ev,1: D1 /3 (R513). -/
  | rcrEv1 (e : RM Gpr)
  /-- RCR Eb,CL: D2 /3 (R513). -/
  | rcrEbCL (e : RM Reg8)
  /-- RCR Ev,CL: D3 /3 (R513). -/
  | rcrEvCL (e : RM Gpr)
  /-- SHL_SAL Eb,1: D0 /4 (R507). -/
  | shlEb1 (e : RM Reg8)
  /-- SHL_SAL Ev,1: D1 /4 (R507). -/
  | shlEv1 (e : RM Gpr)
  /-- SHL_SAL Eb,CL: D2 /4 (R507). -/
  | shlEbCL (e : RM Reg8)
  /-- SHL_SAL Ev,CL: D3 /4 (R507). -/
  | shlEvCL (e : RM Gpr)
  /-- SHR Eb,1: D0 /5 (R508). -/
  | shrEb1 (e : RM Reg8)
  /-- SHR Ev,1: D1 /5 (R508). -/
  | shrEv1 (e : RM Gpr)
  /-- SHR Eb,CL: D2 /5 (R508). -/
  | shrEbCL (e : RM Reg8)
  /-- SHR Ev,CL: D3 /5 (R508). -/
  | shrEvCL (e : RM Gpr)
  /-- SAR Eb,1: D0 /7 (R509). -/
  | sarEb1 (e : RM Reg8)
  /-- SAR Ev,1: D1 /7 (R509). -/
  | sarEv1 (e : RM Gpr)
  /-- SAR Eb,CL: D2 /7 (R509). -/
  | sarEbCL (e : RM Reg8)
  /-- SAR Ev,CL: D3 /7 (R509). -/
  | sarEvCL (e : RM Gpr)
  /-- AAM Ib: D4 (R468). -/
  | aamIb (ib : Byte)
  /-- AAD Ib: D5 (R469). -/
  | aadIb (ib : Byte)
  /-- ESC_0 E: D8 (R750). -/
  | esc0 (op : BitVec 3) (e : RM Gpr)
  /-- ESC_1 E: D9 (R750). -/
  | esc1 (op : BitVec 3) (e : RM Gpr)
  /-- ESC_2 E: DA (R750). -/
  | esc2 (op : BitVec 3) (e : RM Gpr)
  /-- ESC_3 E: DB (R750). -/
  | esc3 (op : BitVec 3) (e : RM Gpr)
  /-- ESC_4 E: DC (R750). -/
  | esc4 (op : BitVec 3) (e : RM Gpr)
  /-- ESC_5 E: DD (R750). -/
  | esc5 (op : BitVec 3) (e : RM Gpr)
  /-- ESC_6 E: DE (R750). -/
  | esc6 (op : BitVec 3) (e : RM Gpr)
  /-- ESC_7 E: DF (R750). -/
  | esc7 (op : BitVec 3) (e : RM Gpr)
  /-- LOOPNE_LOOPNZ Jb: E0 (R567). -/
  | loopneJb (jb : Byte)
  /-- LOOPE_LOOPZ Jb: E1 (R566). -/
  | loopeJb (jb : Byte)
  /-- LOOP Jb: E2 (R565). -/
  | loopJb (jb : Byte)
  /-- JCXZ_JECXZ Jb: E3 (R564). -/
  | jcxzJb (jb : Byte)
  /-- IN AL,Ib: E4 (R670). -/
  | inALIb (ib : Byte)
  /-- IN eAX,Ib: E5 (R670). -/
  | inEAXIb (ib : Byte)
  /-- OUT Ib,AL: E6 (R671). -/
  | outIbAL (ib : Byte)
  /-- OUT Ib,eAX: E7 (R671). -/
  | outIbEAX (ib : Byte)
  /-- CALL Jv: E8 (R568). -/
  | callJv (jv : Dword)
  /-- JMP Jv: E9 (R561). -/
  | jmpJv (jv : Dword)
  /-- JMP Ap: EA (R576). -/
  | jmpAp (off : Dword) (sel : Word)
  /-- JMP Jb: EB (R561). -/
  | jmpJb (jb : Byte)
  /-- TEST Eb,Ib: F6 /0 (R505). -/
  | testEbIb (e : RM Reg8) (ib : Byte)
  /-- NOT Eb: F6 /2 (R504). -/
  | notEb (e : RM Reg8)
  /-- NEG Eb: F6 /3 (R458). -/
  | negEb (e : RM Reg8)
  /-- MUL Eb: F6 /4 (R459). -/
  | mulEb (e : RM Reg8)
  /-- IMUL Eb: F6 /5 (R460). -/
  | imulEb (e : RM Reg8)
  /-- DIV Eb: F6 /6 (R462). -/
  | divEb (e : RM Reg8)
  /-- IDIV Eb: F6 /7 (R463). -/
  | idivEb (e : RM Reg8)
  /-- TEST Ev,Iv: F7 /0 (R505). -/
  | testEvIv (e : RM Gpr) (iv : Dword)
  /-- NOT Ev: F7 /2 (R504). -/
  | notEv (e : RM Gpr)
  /-- NEG Ev: F7 /3 (R458). -/
  | negEv (e : RM Gpr)
  /-- MUL Ev: F7 /4 (R459). -/
  | mulEv (e : RM Gpr)
  /-- IMUL Ev: F7 /5 (R460). -/
  | imulEv (e : RM Gpr)
  /-- DIV Ev: F7 /6 (R462). -/
  | divEv (e : RM Gpr)
  /-- IDIV Ev: F7 /7 (R463). -/
  | idivEv (e : RM Gpr)
  /-- INC Eb: FE /0 (R456). -/
  | incEb (e : RM Reg8)
  /-- DEC Eb: FE /1 (R457). -/
  | decEb (e : RM Reg8)
  /-- INC Ev: FF /0 (R456). -/
  | incEv (e : RM Gpr)
  /-- DEC Ev: FF /1 (R457). -/
  | decEv (e : RM Gpr)
  /-- CALL Ev: FF /2 (R569). -/
  | callEv (e : RM Gpr)
  /-- CALL Ep: FF /3 (R577). -/
  | callEp (m : Mem)
  /-- JMP Ev: FF /4 (R562). -/
  | jmpEv (e : RM Gpr)
  /-- JMP Ep: FF /5 (R576). -/
  | jmpEp (m : Mem)
  /-- PUSH Ev: FF /6 (R406). -/
  | pushEv (e : RM Gpr)
  /-- SLDT Ew: 0F 00 /0 (R777). -/
  | sldtEw (e : RM Gpr)
  /-- STR Ew: 0F 00 /1 (R861). -/
  | strEw (e : RM Gpr)
  /-- LLDT Ew: 0F 00 /2 (R776). -/
  | lldtEw (e : RM Gpr)
  /-- LTR Ew: 0F 00 /3 (R860). -/
  | ltrEw (e : RM Gpr)
  /-- VERR Ew: 0F 00 /4 (R818). -/
  | verrEw (e : RM Gpr)
  /-- VERW Ew: 0F 00 /5 (R819). -/
  | verwEw (e : RM Gpr)
  /-- SGDT Ms: 0F 01 /0 (R774). -/
  | sgdtMs (m : Mem)
  /-- SIDT Ms: 0F 01 /1 (R775). -/
  | sidtMs (m : Mem)
  /-- LGDT Ms: 0F 01 /2 (R772). -/
  | lgdtMs (m : Mem)
  /-- LIDT Ms: 0F 01 /3 (R773). -/
  | lidtMs (m : Mem)
  /-- SMSW Ew: 0F 01 /4 (R781). -/
  | smswEw (e : RM Gpr)
  /-- LMSW Ew: 0F 01 /6 (R780). -/
  | lmswEw (e : RM Gpr)
  /-- LAR Gv,Ew: 0F 02 (R816). -/
  | larGvEw (g : Gpr) (e : RM Gpr)
  /-- LSL Gv,Ew: 0F 03 (R817). -/
  | lslGvEw (g : Gpr) (e : RM Gpr)
  /-- MOV Rd,Cd: 0F 20 (R800). -/
  | movRdCd (r : Gpr) (n : BitVec 3)
  /-- MOV Rd,Dd: 0F 21 (R805). -/
  | movRdDd (r : Gpr) (n : BitVec 3)
  /-- MOV Cd,Rd: 0F 22 (R800). -/
  | movCdRd (n : BitVec 3) (r : Gpr)
  /-- MOV Dd,Rd: 0F 23 (R805). -/
  | movDdRd (n : BitVec 3) (r : Gpr)
  /-- MOV Rd,Td: 0F 24 (R810). -/
  | movRdTd (r : Gpr) (n : BitVec 3)
  /-- MOV Td,Rd: 0F 26 (R810). -/
  | movTdRd (n : BitVec 3) (r : Gpr)
  /-- Jcc Jv: 0F 80 + cc (R563). -/
  | jccJv (cc : Cond) (jv : Dword)
  /-- SETcc Eb: 0F 90 + cc (R524). -/
  | setccEb (cc : Cond) (e : RM Reg8)
  /-- BT Ev,Gv: 0F A3 (R517). -/
  | btEvGv (e : RM Gpr) (g : Gpr)
  /-- SHLD Ev,Gv,Ib: 0F A4 (R514). -/
  | shldEvGvIb (e : RM Gpr) (g : Gpr) (ib : Byte)
  /-- SHLD Ev,Gv,CL: 0F A5 (R514). -/
  | shldEvGvCL (e : RM Gpr) (g : Gpr)
  /-- BTS Ev,Gv: 0F AB (R518). -/
  | btsEvGv (e : RM Gpr) (g : Gpr)
  /-- SHRD Ev,Gv,Ib: 0F AC (R515). -/
  | shrdEvGvIb (e : RM Gpr) (g : Gpr) (ib : Byte)
  /-- SHRD Ev,Gv,CL: 0F AD (R515). -/
  | shrdEvGvCL (e : RM Gpr) (g : Gpr)
  /-- IMUL Gv,Ev: 0F AF (R461). -/
  | imulGvEv (g : Gpr) (e : RM Gpr)
  /-- LSS Gv,Mp: 0F B2 (R418). -/
  | lssGvMp (g : Gpr) (m : Mem)
  /-- BTR Ev,Gv: 0F B3 (R519). -/
  | btrEvGv (e : RM Gpr) (g : Gpr)
  /-- LFS Gv,Mp: 0F B4 (R418). -/
  | lfsGvMp (g : Gpr) (m : Mem)
  /-- LGS Gv,Mp: 0F B5 (R418). -/
  | lgsGvMp (g : Gpr) (m : Mem)
  /-- MOVZX Gv,Eb: 0F B6 (R412). -/
  | movzxGvEb (g : Gpr) (e : RM Reg8)
  /-- MOVZX Gv,Ew: 0F B7 (R412). -/
  | movzxGvEw (g : Gpr) (e : RM Gpr)
  /-- BT Ev,Ib: 0F BA /4 (R517). -/
  | btEvIb (e : RM Gpr) (ib : Byte)
  /-- BTS Ev,Ib: 0F BA /5 (R518). -/
  | btsEvIb (e : RM Gpr) (ib : Byte)
  /-- BTR Ev,Ib: 0F BA /6 (R519). -/
  | btrEvIb (e : RM Gpr) (ib : Byte)
  /-- BTC Ev,Ib: 0F BA /7 (R520). -/
  | btcEvIb (e : RM Gpr) (ib : Byte)
  /-- BTC Ev,Gv: 0F BB (R520). -/
  | btcEvGv (e : RM Gpr) (g : Gpr)
  /-- BSF Gv,Ev: 0F BC (R521). -/
  | bsfGvEv (g : Gpr) (e : RM Gpr)
  /-- BSR Gv,Ev: 0F BD (R522). -/
  | bsrGvEv (g : Gpr) (e : RM Gpr)
  /-- MOVSX Gv,Eb: 0F BE (R413). -/
  | movsxGvEb (g : Gpr) (e : RM Reg8)
  /-- MOVSX Gv,Ew: 0F BF (R413). -/
  | movsxGvEw (g : Gpr) (e : RM Gpr)
  /-- PUSH_ES: 06 (R407). -/
  | pushES
  /-- POP_ES: 07 (R409). -/
  | popES
  /-- PUSH_CS: 0E (R407). -/
  | pushCS
  /-- PUSH_SS: 16 (R407). -/
  | pushSS
  /-- POP_SS: 17 (R409). -/
  | popSS
  /-- PUSH_DS: 1E (R407). -/
  | pushDS
  /-- POP_DS: 1F (R409). -/
  | popDS
  /-- The prefix ES: 26 (R306, R305). -/
  | pfxES
  /-- DAA: 27 (R464). -/
  | daa
  /-- The prefix CS: 2E (R306, R305). -/
  | pfxCS
  /-- DAS: 2F (R465). -/
  | das
  /-- The prefix SS: 36 (R306, R305). -/
  | pfxSS
  /-- AAA: 37 (R466). -/
  | aaa
  /-- The prefix DS: 3E (R306, R305). -/
  | pfxDS
  /-- AAS: 3F (R467). -/
  | aas
  /-- PUSHA_PUSHAD: 60 (R410). -/
  | pusha
  /-- POPA_POPAD: 61 (R411). -/
  | popa
  /-- The prefix FS: 64 (R306, R305). -/
  | pfxFS
  /-- The prefix GS: 65 (R306, R305). -/
  | pfxGS
  /-- The prefix operand-size: 66 (R310, R305). -/
  | pfxOpSize
  /-- The prefix address-size: 67 (R311, R305). -/
  | pfxAddrSize
  /-- INSB: 6C (R672). -/
  | insb
  /-- INSW_INSD: 6D (R672). -/
  | insv
  /-- OUTSB: 6E (R673). -/
  | outsb
  /-- OUTSW_OUTSD: 6F (R673). -/
  | outsv
  /-- NOP: 90 (R740). -/
  | nop
  /-- CBW_CWDE: 98 (R414). -/
  | cbw
  /-- CWD_CDQ: 99 (R415). -/
  | cwd
  /-- WAIT: 9B (R753). -/
  | wait
  /-- PUSHF_PUSHFD: 9C (R734). -/
  | pushf
  /-- POPF_POPFD: 9D (R735). -/
  | popf
  /-- SAHF: 9E (R733). -/
  | sahf
  /-- LAHF: 9F (R732). -/
  | lahf
  /-- MOVSB: A4 (R661). -/
  | movsb
  /-- MOVSW_MOVSD: A5 (R661). -/
  | movsv
  /-- CMPSB: A6 (R662). -/
  | cmpsb
  /-- CMPSW_CMPSD: A7 (R662). -/
  | cmpsv
  /-- STOSB: AA (R665). -/
  | stosb
  /-- STOSW_STOSD: AB (R665). -/
  | stosv
  /-- LODSB: AC (R664). -/
  | lodsb
  /-- LODSW_LODSD: AD (R664). -/
  | lodsv
  /-- SCASB: AE (R663). -/
  | scasb
  /-- SCASW_SCASD: AF (R663). -/
  | scasv
  /-- RET: C3 (R570). -/
  | ret
  /-- LEAVE: C9 (R617). -/
  | leave
  /-- RETF: CB (R578). -/
  | retf
  /-- INT_3: CC (R606). -/
  | int3
  /-- INTO: CE (R607). -/
  | into
  /-- IRET_IRETD: CF (R608). -/
  | iret
  /-- XLAT_XLATB: D7 (R417). -/
  | xlat
  /-- IN AL,DX: EC (R670). -/
  | inALDX
  /-- IN eAX,DX: ED (R670). -/
  | inEAXDX
  /-- OUT DX,AL: EE (R671). -/
  | outDXAL
  /-- OUT DX,eAX: EF (R671). -/
  | outDXEAX
  /-- The prefix LOCK: F0 (R308, R305). -/
  | pfxLock
  /-- The prefix REPNE_REPNZ: F2 (R307, R305). -/
  | pfxRepne
  /-- The prefix REP_REPE_REPZ: F3 (R307, R305). -/
  | pfxRep
  /-- HLT: F4 (R745). -/
  | hlt
  /-- CMC: F5 (R722). -/
  | cmc
  /-- CLC: F8 (R720). -/
  | clc
  /-- STC: F9 (R721). -/
  | stc
  /-- CLI: FA (R725). -/
  | cli
  /-- STI: FB (R726). -/
  | sti
  /-- CLD: FC (R723). -/
  | cld
  /-- STD: FD (R724). -/
  | std
  /-- CLTS: 0F 06 (R782). -/
  | clts
  /-- PUSH_FS: 0F A0 (R407). -/
  | pushFS
  /-- POP_FS: 0F A1 (R409). -/
  | popFS
  /-- PUSH_GS: 0F A8 (R407). -/
  | pushGS
  /-- POP_GS: 0F A9 (R409). -/
  | popGS
  deriving DecidableEq, Repr

end Sys2Proof
end

