-- ==== Sys2Proof/WellFormed.lean ====
section
/-! DEFINITION. Which terms of `Instr` an encoding stands for: the operand sizes that 30_encoding.md R310 to
R312 give, the addressing forms of R321 to R323, and the register fields of R349 and R361. -/

namespace Sys2Proof

/-- What decoding depends on besides the bytes: the D bit of CS and the size prefixes seen so far
(30_encoding.md R310, R311). -/
structure DecodeCtx where
  /-- CS.D: 32-bit default sizes. -/
  d32 : Bool
  /-- An operand-size prefix has been seen. -/
  op66 : Bool := false
  /-- An address-size prefix has been seen. -/
  ad67 : Bool := false
  deriving DecidableEq, Repr

/-- The operand size is 32 bits (30_encoding.md R310). -/
def DecodeCtx.o32 (c : DecodeCtx) : Bool := c.d32 != c.op66

/-- The address size is 32 bits (30_encoding.md R311). -/
def DecodeCtx.a32 (c : DecodeCtx) : Bool := c.d32 != c.ad67

/-- A `v` immediate, relative displacement or offset has no more bits than its encoding holds
(30_encoding.md R335, R337, R338). -/
def fits (wide : Bool) (v : Dword) : Bool := wide || v.toNat < 65536

/-- `[BP]` without displacement has no 16-bit encoding: mod 0, rm 6 is the direct form (30_encoding.md R323). -/
def Mem16.wf : Mem16 → Bool
  | .direct _ => true
  | .based b d => !(b == .bp && d == .none)

/-- rm 4 is the SIB escape; EBP as base needs a displacement, with and without SIB (30_encoding.md R321, R322). -/
def Mem32.wf : Mem32 → Bool
  | .direct _ => true
  | .based r d => r != .esp && !(r == .ebp && d == .none)
  | .sib _ _ base d => !(base == .ebp && d == .none)
  | .sibNoBase _ _ _ => true

/-- The form is of the address size in force (30_encoding.md R311). -/
def Mem.wf (a32 : Bool) : Mem → Bool
  | .m16 m => !a32 && m.wf
  | .m32 m => a32 && m.wf

/-- A register operand is always well formed. -/
def RM.wf {R : Type} (a32 : Bool) : RM R → Bool
  | .reg _ => true
  | .mem m => m.wf a32

/-- The instruction has an encoding under the context `c`. -/
def Instr.wf (c : DecodeCtx) : Instr → Bool
  | .addEbGb e _ | .addEvGv e _ | .addGbEb _ e | .addGvEv _ e | .orEbGb e _ | .orEvGv e _ | .orGbEb _ e
  | .orGvEv _ e | .adcEbGb e _ | .adcEvGv e _ | .adcGbEb _ e | .adcGvEv _ e | .sbbEbGb e _ | .sbbEvGv e _
  | .sbbGbEb _ e | .sbbGvEv _ e | .andEbGb e _ | .andEvGv e _ | .andGbEb _ e | .andGvEv _ e | .subEbGb e _
  | .subEvGv e _ | .subGbEb _ e | .subGvEv _ e | .xorEbGb e _ | .xorEvGv e _ | .xorGbEb _ e | .xorGvEv _ e
  | .cmpEbGb e _ | .cmpEvGv e _ | .cmpGbEb _ e | .cmpGvEv _ e | .arplEwGw e _ | .imulGvEvIb _ e _
  | .addEbIb e _ | .addEvIb e _ | .orEbIb e _ | .orEvIb e _ | .adcEbIb e _ | .adcEvIb e _ | .sbbEbIb e _
  | .sbbEvIb e _ | .andEbIb e _ | .andEvIb e _ | .subEbIb e _ | .subEvIb e _ | .xorEbIb e _ | .xorEvIb e _
  | .cmpEbIb e _ | .cmpEvIb e _ | .testEbGb e _ | .testEvGv e _ | .xchgEbGb e _ | .xchgEvGv e _
  | .movEbGb e _ | .movEvGv e _ | .movGbEb _ e | .movGvEv _ e | .movEwSw e _ | .popEv e | .rolEbIb e _
  | .rolEvIb e _ | .rorEbIb e _ | .rorEvIb e _ | .rclEbIb e _ | .rclEvIb e _ | .rcrEbIb e _ | .rcrEvIb e _
  | .shlEbIb e _ | .shlEvIb e _ | .shrEbIb e _ | .shrEvIb e _ | .sarEbIb e _ | .sarEvIb e _ | .movEbIb e _
  | .rolEb1 e | .rolEv1 e | .rolEbCL e | .rolEvCL e | .rorEb1 e | .rorEv1 e | .rorEbCL e | .rorEvCL e
  | .rclEb1 e | .rclEv1 e | .rclEbCL e | .rclEvCL e | .rcrEb1 e | .rcrEv1 e | .rcrEbCL e | .rcrEvCL e
  | .shlEb1 e | .shlEv1 e | .shlEbCL e | .shlEvCL e | .shrEb1 e | .shrEv1 e | .shrEbCL e | .shrEvCL e
  | .sarEb1 e | .sarEv1 e | .sarEbCL e | .sarEvCL e | .esc0 _ e | .esc1 _ e | .esc2 _ e | .esc3 _ e
  | .esc4 _ e | .esc5 _ e | .esc6 _ e | .esc7 _ e | .testEbIb e _ | .notEb e | .negEb e | .mulEb e
  | .imulEb e | .divEb e | .idivEb e | .notEv e | .negEv e | .mulEv e | .imulEv e | .divEv e | .idivEv e
  | .incEb e | .decEb e | .incEv e | .decEv e | .callEv e | .jmpEv e | .pushEv e | .sldtEw e | .strEw e
  | .lldtEw e | .ltrEw e | .verrEw e | .verwEw e | .smswEw e | .lmswEw e | .larGvEw _ e | .lslGvEw _ e
  | .setccEb _ e | .btEvGv e _ | .shldEvGvIb e _ _ | .shldEvGvCL e _ | .btsEvGv e _ | .shrdEvGvIb e _ _
  | .shrdEvGvCL e _ | .imulGvEv _ e | .btrEvGv e _ | .movzxGvEb _ e | .movzxGvEw _ e | .btEvIb e _
  | .btsEvIb e _ | .btrEvIb e _ | .btcEvIb e _ | .btcEvGv e _ | .bsfGvEv _ e | .bsrGvEv _ e
  | .movsxGvEb _ e | .movsxGvEw _ e => e.wf c.a32
  | .addALIb _ | .orALIb _ | .adcALIb _ | .sbbALIb _ | .andALIb _ | .subALIb _ | .xorALIb _ | .cmpALIb _
  | .pushES | .popES | .pushCS | .pushSS | .popSS | .pushDS | .popDS | .pfxES | .daa | .pfxCS | .das
  | .pfxSS | .aaa | .pfxDS | .aas | .incRv _ | .decRv _ | .pushRv _ | .popRv _ | .pusha | .popa | .pfxFS
  | .pfxGS | .pfxOpSize | .pfxAddrSize | .pushIb _ | .insb | .insv | .outsb | .outsv | .jccJb _ _ | .nop
  | .cbw | .cwd | .wait | .pushf | .popf | .sahf | .lahf | .movsb | .movsv | .cmpsb | .cmpsv | .testALIb _
  | .stosb | .stosv | .lodsb | .lodsv | .scasb | .scasv | .movRbIb _ _ | .retIw _ | .ret | .enterIwIb _ _
  | .leave | .retfIw _ | .retf | .int3 | .intIb _ | .into | .iret | .aamIb _ | .aadIb _ | .xlat
  | .loopneJb _ | .loopeJb _ | .loopJb _ | .jcxzJb _ | .inALIb _ | .inEAXIb _ | .outIbAL _ | .outIbEAX _
  | .jmpJb _ | .inALDX | .inEAXDX | .outDXAL | .outDXEAX | .pfxLock | .pfxRepne | .pfxRep | .hlt | .cmc
  | .clc | .stc | .cli | .sti | .cld | .std | .clts | .movRdCd _ _ | .movRdDd _ _ | .movCdRd _ _
  | .movDdRd _ _ | .movRdTd _ _ | .movTdRd _ _ | .pushFS | .popFS | .pushGS | .popGS => true
  | .addEAXIv iv | .orEAXIv iv | .adcEAXIv iv | .sbbEAXIv iv | .andEAXIv iv | .subEAXIv iv | .xorEAXIv iv
  | .cmpEAXIv iv | .pushIv iv | .testEAXIv iv | .movRvIv _ iv => fits c.o32 iv
  | .boundGvMa _ m | .leaGvM _ m | .lesGvMp _ m | .ldsGvMp _ m | .callEp m | .jmpEp m | .sgdtMs m
  | .sidtMs m | .lgdtMs m | .lidtMs m | .lssGvMp _ m | .lfsGvMp _ m | .lgsGvMp _ m => m.wf c.a32
  | .imulGvEvIv _ e iv | .addEvIv e iv | .orEvIv e iv | .adcEvIv e iv | .sbbEvIv e iv | .andEvIv e iv
  | .subEvIv e iv | .xorEvIv e iv | .cmpEvIv e iv | .movEvIv e iv | .testEvIv e iv => e.wf c.a32 && fits c.o32 iv
  | .movSwEw sr e => sr != .cs && e.wf c.a32
  | .xchgEAXRv r => r != .eax
  | .callAp off _ | .jmpAp off _ => fits c.o32 off
  | .movALOb o | .movEAXOv o | .movObAL o | .movOvEAX o => fits c.a32 o
  | .callJv jv | .jmpJv jv | .jccJv _ jv => fits c.o32 jv

end Sys2Proof
end

