-- ==== Sys2Proof/Decode.lean ====
section
/-! DEFINITION. The decoder (30_encoding.md R300 to R362), total on any bytes, and after it the encoder.
A byte list too short for an instruction answers `short`; an encoding that R355, R356 list as undefined answers
`undefined` with its reason, as soon as the bytes read so far show it. -/

namespace Sys2Proof

/-- Why decoding stops without an instruction. -/
inductive DecodeError where
  /-- More bytes are needed. -/
  | short
  /-- The encoding is undefined and raises exception 6 (30_encoding.md R355, R356). -/
  | undefined (why : String)
  deriving DecidableEq, Repr

/-- A reader of instruction bytes. -/
abbrev P (α : Type) : Type := StateT (List Byte) (Except DecodeError) α

/-- The general register of a 3-bit number (10_state.md R44). -/
def Gpr.ofNum (n : BitVec 3) : Gpr :=
  match n.toNat with
  | 0 => .eax | 1 => .ecx | 2 => .edx | 3 => .ebx | 4 => .esp | 5 => .ebp | 6 => .esi | _ => .edi

/-- The number of a general register (10_state.md R44). -/
def Gpr.num : Gpr → BitVec 3
  | .eax => 0 | .ecx => 1 | .edx => 2 | .ebx => 3 | .esp => 4 | .ebp => 5 | .esi => 6 | .edi => 7

/-- The byte register of a 3-bit number (10_state.md R44). -/
def Reg8.ofNum (n : BitVec 3) : Reg8 :=
  match n.toNat with
  | 0 => .al | 1 => .cl | 2 => .dl | 3 => .bl | 4 => .ah | 5 => .ch | 6 => .dh | _ => .bh

/-- The number of a byte register (10_state.md R44). -/
def Reg8.num : Reg8 → BitVec 3
  | .al => 0 | .cl => 1 | .dl => 2 | .bl => 3 | .ah => 4 | .ch => 5 | .dh => 6 | .bh => 7

/-- The segment register of a 3-bit number; 6 and 7 name none (30_encoding.md R349). -/
def Sreg.ofNum (n : BitVec 3) : Option Sreg :=
  match n.toNat with
  | 0 => some .es | 1 => some .cs | 2 => some .ss | 3 => some .ds | 4 => some .fs | 5 => some .gs | _ => none

/-- The number of a segment register (10_state.md R44). -/
def Sreg.num : Sreg → BitVec 3
  | .es => 0 | .cs => 1 | .ss => 2 | .ds => 3 | .fs => 4 | .gs => 5

/-- The condition of a 4-bit number (30_encoding.md R343). -/
def Cond.ofNum (n : BitVec 4) : Cond :=
  match n.toNat with
  | 0 => .o | 1 => .no | 2 => .b | 3 => .ae | 4 => .e | 5 => .ne | 6 => .be | 7 => .a
  | 8 => .s | 9 => .ns | 10 => .p | 11 => .np | 12 => .l | 13 => .ge | 14 => .le | _ => .g

/-- The number of a condition (30_encoding.md R343). -/
def Cond.num : Cond → BitVec 4
  | .o => 0 | .no => 1 | .b => 2 | .ae => 3 | .e => 4 | .ne => 5 | .be => 6 | .a => 7
  | .s => 8 | .ns => 9 | .p => 10 | .np => 11 | .l => 12 | .ge => 13 | .le => 14 | .g => 15

/-- The 16-bit base of an `rm` number (30_encoding.md R323). -/
def Base16.ofNum (n : BitVec 3) : Base16 :=
  match n.toNat with
  | 0 => .bxsi | 1 => .bxdi | 2 => .bpsi | 3 => .bpdi | 4 => .si | 5 => .di | 6 => .bp | _ => .bx

/-- The `rm` number of a 16-bit base (30_encoding.md R323). -/
def Base16.num : Base16 → BitVec 3
  | .bxsi => 0 | .bxdi => 1 | .bpsi => 2 | .bpdi => 3 | .si => 4 | .di => 5 | .bp => 6 | .bx => 7

/-- The `mod` field of a modR/M byte (30_encoding.md R320). -/
def modField (b : Byte) : BitVec 2 := b.extractLsb' 6 2
/-- The `reg` field of a modR/M byte, the `index` field of a SIB byte (30_encoding.md R320, R322). -/
def regField (b : Byte) : BitVec 3 := b.extractLsb' 3 3
/-- The `rm` field of a modR/M byte, the `base` field of a SIB byte (30_encoding.md R320, R322). -/
def rmField (b : Byte) : BitVec 3 := b.extractLsb' 0 3

/-- The next instruction byte. -/
def next : P Byte := fun bs =>
  match bs with
  | [] => .error .short
  | b :: rest => .ok (b, rest)

/-- An undefined encoding (30_encoding.md R355, R356). -/
def undefined {α : Type} (why : String) : P α := fun _ => .error (.undefined why)

/-- A word, low byte first (30_encoding.md R301). -/
def nextW : P Word := do
  let lo ← next
  let hi ← next
  pure (hi ++ lo)

/-- A doubleword, low byte first (30_encoding.md R301). -/
def nextD : P Dword := do
  let lo ← nextW
  let hi ← nextW
  pure (hi ++ lo)

/-- A doubleword or a zero-extended word, by size (30_encoding.md R335, R337, R338). -/
def nextV (wide : Bool) : P Dword := do
  if wide then nextD else pure ((← nextW).setWidth 32)

/-- The displacement that `mod` calls for with 16-bit addressing (30_encoding.md R323). -/
def disp16 (md : BitVec 2) : P Disp16 :=
  match md.toNat with
  | 0 => pure .none
  | 1 => do pure (.d8 (← next))
  | _ => do pure (.d16 (← nextW))

/-- The displacement that `mod` calls for with 32-bit addressing (30_encoding.md R321). -/
def disp32 (md : BitVec 2) : P Disp32 :=
  match md.toNat with
  | 0 => pure .none
  | 1 => do pure (.d8 (← next))
  | _ => do pure (.d32 (← nextD))

/-- The rest of a 16-bit memory operand after its modR/M byte (30_encoding.md R323). -/
def mem16 (b : Byte) : P Mem16 := do
  if modField b = 0 ∧ rmField b = 6 then pure (.direct (← nextW))
  else pure (.based (Base16.ofNum (rmField b)) (← disp16 (modField b)))

/-- The rest of a 32-bit memory operand after its modR/M byte (30_encoding.md R321, R322). -/
def mem32 (b : Byte) : P Mem32 := do
  if rmField b = 4 then
    let sib ← next
    if rmField sib = 5 ∧ modField b = 0 then
      pure (.sibNoBase (modField sib) (Gpr.ofNum (regField sib)) (← nextD))
    else
      pure (.sib (modField sib) (Gpr.ofNum (regField sib)) (Gpr.ofNum (rmField sib)) (← disp32 (modField b)))
  else if modField b = 0 ∧ rmField b = 5 then pure (.direct (← nextD))
  else pure (.based (Gpr.ofNum (rmField b)) (← disp32 (modField b)))

/-- The rest of a memory operand after its modR/M byte, by address size (30_encoding.md R330). -/
def memOp (c : DecodeCtx) (b : Byte) : P Mem := do
  if c.a32 then pure (.m32 (← mem32 b)) else pure (.m16 (← mem16 b))

/-- An `E` operand with byte registers (30_encoding.md R324, R330). -/
def opEb (c : DecodeCtx) (b : Byte) : P (RM Reg8) := do
  if modField b = 3 then pure (.reg (Reg8.ofNum (rmField b))) else pure (.mem (← memOp c b))

/-- An `E` operand with general registers (30_encoding.md R324, R330). -/
def opEv (c : DecodeCtx) (b : Byte) : P (RM Gpr) := do
  if modField b = 3 then pure (.reg (Gpr.ofNum (rmField b))) else pure (.mem (← memOp c b))

/-- An `M` operand: a register form is undefined (30_encoding.md R356). -/
def opM (c : DecodeCtx) (b : Byte) : P Mem := do
  if modField b = 3 then undefined "a memory operand is required" else memOp c b

/-- Read the modR/M byte. -/
def withModrm (k : Byte → P Instr) : P Instr := do k (← next)

/-! The operand strings of the maps (30_encoding.md R340). `b` is the modR/M byte; `k` is the constructor. -/

/-- `Eb`. -/
def shEb (c : DecodeCtx) (b : Byte) (k : RM Reg8 → Instr) : P Instr := do pure (k (← opEb c b))
/-- `Ev`. -/
def shEv (c : DecodeCtx) (b : Byte) (k : RM Gpr → Instr) : P Instr := do pure (k (← opEv c b))
/-- `Ew`. -/
def shEw (c : DecodeCtx) (b : Byte) (k : RM Gpr → Instr) : P Instr := do pure (k (← opEv c b))
/-- `Ms`. -/
def shMs (c : DecodeCtx) (b : Byte) (k : Mem → Instr) : P Instr := do pure (k (← opM c b))
/-- `Ep`, which must be in memory. -/
def shEp (c : DecodeCtx) (b : Byte) (k : Mem → Instr) : P Instr := do pure (k (← opM c b))
/-- `Eb,Gb`. -/
def shEbGb (c : DecodeCtx) (b : Byte) (k : RM Reg8 → Reg8 → Instr) : P Instr := do
  pure (k (← opEb c b) (Reg8.ofNum (regField b)))
/-- `Ev,Gv`. -/
def shEvGv (c : DecodeCtx) (b : Byte) (k : RM Gpr → Gpr → Instr) : P Instr := do
  pure (k (← opEv c b) (Gpr.ofNum (regField b)))
/-- `Ew,Gw`. -/
def shEwGw (c : DecodeCtx) (b : Byte) (k : RM Gpr → Gpr → Instr) : P Instr := do
  pure (k (← opEv c b) (Gpr.ofNum (regField b)))
/-- `Gb,Eb`. -/
def shGbEb (c : DecodeCtx) (b : Byte) (k : Reg8 → RM Reg8 → Instr) : P Instr := do
  pure (k (Reg8.ofNum (regField b)) (← opEb c b))
/-- `Gv,Ev`. -/
def shGvEv (c : DecodeCtx) (b : Byte) (k : Gpr → RM Gpr → Instr) : P Instr := do
  pure (k (Gpr.ofNum (regField b)) (← opEv c b))
/-- `Gv,Ew`. -/
def shGvEw (c : DecodeCtx) (b : Byte) (k : Gpr → RM Gpr → Instr) : P Instr := do
  pure (k (Gpr.ofNum (regField b)) (← opEv c b))
/-- `Gv,Eb`. -/
def shGvEb (c : DecodeCtx) (b : Byte) (k : Gpr → RM Reg8 → Instr) : P Instr := do
  pure (k (Gpr.ofNum (regField b)) (← opEb c b))
/-- `Gv,M`. -/
def shGvM (c : DecodeCtx) (b : Byte) (k : Gpr → Mem → Instr) : P Instr := do
  pure (k (Gpr.ofNum (regField b)) (← opM c b))
/-- `Gv,Ma`. -/
def shGvMa (c : DecodeCtx) (b : Byte) (k : Gpr → Mem → Instr) : P Instr := do
  pure (k (Gpr.ofNum (regField b)) (← opM c b))
/-- `Gv,Mp`. -/
def shGvMp (c : DecodeCtx) (b : Byte) (k : Gpr → Mem → Instr) : P Instr := do
  pure (k (Gpr.ofNum (regField b)) (← opM c b))
/-- `Eb,Ib`. -/
def shEbIb (c : DecodeCtx) (b : Byte) (k : RM Reg8 → Byte → Instr) : P Instr := do
  let e ← opEb c b
  pure (k e (← next))
/-- `Ev,Ib`. -/
def shEvIb (c : DecodeCtx) (b : Byte) (k : RM Gpr → Byte → Instr) : P Instr := do
  let e ← opEv c b
  pure (k e (← next))
/-- `Ev,Iv`. -/
def shEvIv (c : DecodeCtx) (b : Byte) (k : RM Gpr → Dword → Instr) : P Instr := do
  let e ← opEv c b
  pure (k e (← nextV c.o32))
/-- `Ev,Gv,Ib`. -/
def shEvGvIb (c : DecodeCtx) (b : Byte) (k : RM Gpr → Gpr → Byte → Instr) : P Instr := do
  let e ← opEv c b
  pure (k e (Gpr.ofNum (regField b)) (← next))
/-- `Gv,Ev,Ib`. -/
def shGvEvIb (c : DecodeCtx) (b : Byte) (k : Gpr → RM Gpr → Byte → Instr) : P Instr := do
  let e ← opEv c b
  pure (k (Gpr.ofNum (regField b)) e (← next))
/-- `Gv,Ev,Iv`. -/
def shGvEvIv (c : DecodeCtx) (b : Byte) (k : Gpr → RM Gpr → Dword → Instr) : P Instr := do
  let e ← opEv c b
  pure (k (Gpr.ofNum (regField b)) e (← nextV c.o32))
/-- `Ew,Sw`: numbers 6 and 7 are undefined (30_encoding.md R349). -/
def shEwSw (c : DecodeCtx) (b : Byte) (k : RM Gpr → Sreg → Instr) : P Instr := do
  match Sreg.ofNum (regField b) with
  | some sr => pure (k (← opEv c b) sr)
  | none => undefined "no such segment register"
/-- `Sw,Ew`: numbers 6 and 7 and CS are undefined (30_encoding.md R349). -/
def shSwEw (c : DecodeCtx) (b : Byte) (k : Sreg → RM Gpr → Instr) : P Instr := do
  match Sreg.ofNum (regField b) with
  | some .cs => undefined "MOV to CS"
  | some sr => pure (k sr (← opEv c b))
  | none => undefined "no such segment register"
/-- `Rd,Cd`, `Rd,Dd`, `Rd,Td`: mod is ignored (30_encoding.md R351). -/
def shRdCd (_ : DecodeCtx) (b : Byte) (k : Gpr → BitVec 3 → Instr) : P Instr :=
  pure (k (Gpr.ofNum (rmField b)) (regField b))
/-- As `shRdCd`, for debug registers. -/
def shRdDd (_ : DecodeCtx) (b : Byte) (k : Gpr → BitVec 3 → Instr) : P Instr :=
  pure (k (Gpr.ofNum (rmField b)) (regField b))
/-- As `shRdCd`, for test registers. -/
def shRdTd (_ : DecodeCtx) (b : Byte) (k : Gpr → BitVec 3 → Instr) : P Instr :=
  pure (k (Gpr.ofNum (rmField b)) (regField b))
/-- `Cd,Rd`. -/
def shCdRd (_ : DecodeCtx) (b : Byte) (k : BitVec 3 → Gpr → Instr) : P Instr :=
  pure (k (regField b) (Gpr.ofNum (rmField b)))
/-- `Dd,Rd`. -/
def shDdRd (_ : DecodeCtx) (b : Byte) (k : BitVec 3 → Gpr → Instr) : P Instr :=
  pure (k (regField b) (Gpr.ofNum (rmField b)))
/-- `Td,Rd`. -/
def shTdRd (_ : DecodeCtx) (b : Byte) (k : BitVec 3 → Gpr → Instr) : P Instr :=
  pure (k (regField b) (Gpr.ofNum (rmField b)))
/-- The operand of an ESC opcode, with the `reg` field (30_encoding.md R348). -/
def shopE (c : DecodeCtx) (b : Byte) (k : BitVec 3 → RM Gpr → Instr) : P Instr := do
  pure (k (regField b) (← opEv c b))
/-- `Ib`. -/
def shIb (_ : DecodeCtx) (k : Byte → Instr) : P Instr := do pure (k (← next))
/-- `Jb`. -/
def shJb (_ : DecodeCtx) (k : Byte → Instr) : P Instr := do pure (k (← next))
/-- `Iw`. -/
def shIw (_ : DecodeCtx) (k : Word → Instr) : P Instr := do pure (k (← nextW))
/-- `Iw,Ib`. -/
def shIwIb (_ : DecodeCtx) (k : Word → Byte → Instr) : P Instr := do
  let w ← nextW
  pure (k w (← next))
/-- `Iv`. -/
def shIv (c : DecodeCtx) (k : Dword → Instr) : P Instr := do pure (k (← nextV c.o32))
/-- `Jv`. -/
def shJv (c : DecodeCtx) (k : Dword → Instr) : P Instr := do pure (k (← nextV c.o32))
/-- `Ob`: an offset of the address size (30_encoding.md R338). -/
def shOb (c : DecodeCtx) (k : Dword → Instr) : P Instr := do pure (k (← nextV c.a32))
/-- `Ov`: an offset of the address size (30_encoding.md R338). -/
def shOv (c : DecodeCtx) (k : Dword → Instr) : P Instr := do pure (k (← nextV c.a32))
/-- `Ap`: offset, then selector (30_encoding.md R339). -/
def shAp (c : DecodeCtx) (k : Dword → Word → Instr) : P Instr := do
  let off ← nextV c.o32
  pure (k off (← nextW))


/-- The two-byte opcode map, after 0F (30_encoding.md R346). It holds no fence instruction (20_memory.md R242). -/
def twoByte (c : DecodeCtx) (opcode : Nat) : P Instr :=
  match opcode with
  | 0x00 => withModrm fun b =>
    match (regField b).toNat with
    | 0 => shEw c b .sldtEw
    | 1 => shEw c b .strEw
    | 2 => shEw c b .lldtEw
    | 3 => shEw c b .ltrEw
    | 4 => shEw c b .verrEw
    | 5 => shEw c b .verwEw
    | _ => undefined "no such opcode extension"
  | 0x01 => withModrm fun b =>
    match (regField b).toNat with
    | 0 => shMs c b .sgdtMs
    | 1 => shMs c b .sidtMs
    | 2 => shMs c b .lgdtMs
    | 3 => shMs c b .lidtMs
    | 4 => shEw c b .smswEw
    | 6 => shEw c b .lmswEw
    | _ => undefined "no such opcode extension"
  | 0x02 => withModrm fun b => shGvEw c b .larGvEw
  | 0x03 => withModrm fun b => shGvEw c b .lslGvEw
  | 0x06 => pure .clts
  | 0x20 => withModrm fun b => shRdCd c b .movRdCd
  | 0x21 => withModrm fun b => shRdDd c b .movRdDd
  | 0x22 => withModrm fun b => shCdRd c b .movCdRd
  | 0x23 => withModrm fun b => shDdRd c b .movDdRd
  | 0x24 => withModrm fun b => shRdTd c b .movRdTd
  | 0x26 => withModrm fun b => shTdRd c b .movTdRd
  | 0x80 => shJv c (.jccJv (Cond.ofNum 0))
  | 0x81 => shJv c (.jccJv (Cond.ofNum 1))
  | 0x82 => shJv c (.jccJv (Cond.ofNum 2))
  | 0x83 => shJv c (.jccJv (Cond.ofNum 3))
  | 0x84 => shJv c (.jccJv (Cond.ofNum 4))
  | 0x85 => shJv c (.jccJv (Cond.ofNum 5))
  | 0x86 => shJv c (.jccJv (Cond.ofNum 6))
  | 0x87 => shJv c (.jccJv (Cond.ofNum 7))
  | 0x88 => shJv c (.jccJv (Cond.ofNum 8))
  | 0x89 => shJv c (.jccJv (Cond.ofNum 9))
  | 0x8A => shJv c (.jccJv (Cond.ofNum 10))
  | 0x8B => shJv c (.jccJv (Cond.ofNum 11))
  | 0x8C => shJv c (.jccJv (Cond.ofNum 12))
  | 0x8D => shJv c (.jccJv (Cond.ofNum 13))
  | 0x8E => shJv c (.jccJv (Cond.ofNum 14))
  | 0x8F => shJv c (.jccJv (Cond.ofNum 15))
  | 0x90 => withModrm fun b => shEb c b (.setccEb (Cond.ofNum 0))
  | 0x91 => withModrm fun b => shEb c b (.setccEb (Cond.ofNum 1))
  | 0x92 => withModrm fun b => shEb c b (.setccEb (Cond.ofNum 2))
  | 0x93 => withModrm fun b => shEb c b (.setccEb (Cond.ofNum 3))
  | 0x94 => withModrm fun b => shEb c b (.setccEb (Cond.ofNum 4))
  | 0x95 => withModrm fun b => shEb c b (.setccEb (Cond.ofNum 5))
  | 0x96 => withModrm fun b => shEb c b (.setccEb (Cond.ofNum 6))
  | 0x97 => withModrm fun b => shEb c b (.setccEb (Cond.ofNum 7))
  | 0x98 => withModrm fun b => shEb c b (.setccEb (Cond.ofNum 8))
  | 0x99 => withModrm fun b => shEb c b (.setccEb (Cond.ofNum 9))
  | 0x9A => withModrm fun b => shEb c b (.setccEb (Cond.ofNum 10))
  | 0x9B => withModrm fun b => shEb c b (.setccEb (Cond.ofNum 11))
  | 0x9C => withModrm fun b => shEb c b (.setccEb (Cond.ofNum 12))
  | 0x9D => withModrm fun b => shEb c b (.setccEb (Cond.ofNum 13))
  | 0x9E => withModrm fun b => shEb c b (.setccEb (Cond.ofNum 14))
  | 0x9F => withModrm fun b => shEb c b (.setccEb (Cond.ofNum 15))
  | 0xA0 => pure .pushFS
  | 0xA1 => pure .popFS
  | 0xA3 => withModrm fun b => shEvGv c b .btEvGv
  | 0xA4 => withModrm fun b => shEvGvIb c b .shldEvGvIb
  | 0xA5 => withModrm fun b => shEvGv c b .shldEvGvCL
  | 0xA8 => pure .pushGS
  | 0xA9 => pure .popGS
  | 0xAB => withModrm fun b => shEvGv c b .btsEvGv
  | 0xAC => withModrm fun b => shEvGvIb c b .shrdEvGvIb
  | 0xAD => withModrm fun b => shEvGv c b .shrdEvGvCL
  | 0xAF => withModrm fun b => shGvEv c b .imulGvEv
  | 0xB2 => withModrm fun b => shGvMp c b .lssGvMp
  | 0xB3 => withModrm fun b => shEvGv c b .btrEvGv
  | 0xB4 => withModrm fun b => shGvMp c b .lfsGvMp
  | 0xB5 => withModrm fun b => shGvMp c b .lgsGvMp
  | 0xB6 => withModrm fun b => shGvEb c b .movzxGvEb
  | 0xB7 => withModrm fun b => shGvEw c b .movzxGvEw
  | 0xBA => withModrm fun b =>
    match (regField b).toNat with
    | 4 => shEvIb c b .btEvIb
    | 5 => shEvIb c b .btsEvIb
    | 6 => shEvIb c b .btrEvIb
    | 7 => shEvIb c b .btcEvIb
    | _ => undefined "no such opcode extension"
  | 0xBB => withModrm fun b => shEvGv c b .btcEvGv
  | 0xBC => withModrm fun b => shGvEv c b .bsfGvEv
  | 0xBD => withModrm fun b => shGvEv c b .bsrGvEv
  | 0xBE => withModrm fun b => shGvEb c b .movsxGvEb
  | 0xBF => withModrm fun b => shGvEw c b .movsxGvEw
  | _ => undefined "no such opcode"

/-- The one-byte opcode map (30_encoding.md R345). It holds no fence instruction (20_memory.md R242). -/
def oneByte (c : DecodeCtx) (opcode : Nat) : P Instr :=
  match opcode with
  | 0x00 => withModrm fun b => shEbGb c b .addEbGb
  | 0x01 => withModrm fun b => shEvGv c b .addEvGv
  | 0x02 => withModrm fun b => shGbEb c b .addGbEb
  | 0x03 => withModrm fun b => shGvEv c b .addGvEv
  | 0x04 => shIb c .addALIb
  | 0x05 => shIv c .addEAXIv
  | 0x06 => pure .pushES
  | 0x07 => pure .popES
  | 0x08 => withModrm fun b => shEbGb c b .orEbGb
  | 0x09 => withModrm fun b => shEvGv c b .orEvGv
  | 0x0A => withModrm fun b => shGbEb c b .orGbEb
  | 0x0B => withModrm fun b => shGvEv c b .orGvEv
  | 0x0C => shIb c .orALIb
  | 0x0D => shIv c .orEAXIv
  | 0x0E => pure .pushCS
  | 0x10 => withModrm fun b => shEbGb c b .adcEbGb
  | 0x11 => withModrm fun b => shEvGv c b .adcEvGv
  | 0x12 => withModrm fun b => shGbEb c b .adcGbEb
  | 0x13 => withModrm fun b => shGvEv c b .adcGvEv
  | 0x14 => shIb c .adcALIb
  | 0x15 => shIv c .adcEAXIv
  | 0x16 => pure .pushSS
  | 0x17 => pure .popSS
  | 0x18 => withModrm fun b => shEbGb c b .sbbEbGb
  | 0x19 => withModrm fun b => shEvGv c b .sbbEvGv
  | 0x1A => withModrm fun b => shGbEb c b .sbbGbEb
  | 0x1B => withModrm fun b => shGvEv c b .sbbGvEv
  | 0x1C => shIb c .sbbALIb
  | 0x1D => shIv c .sbbEAXIv
  | 0x1E => pure .pushDS
  | 0x1F => pure .popDS
  | 0x20 => withModrm fun b => shEbGb c b .andEbGb
  | 0x21 => withModrm fun b => shEvGv c b .andEvGv
  | 0x22 => withModrm fun b => shGbEb c b .andGbEb
  | 0x23 => withModrm fun b => shGvEv c b .andGvEv
  | 0x24 => shIb c .andALIb
  | 0x25 => shIv c .andEAXIv
  | 0x27 => pure .daa
  | 0x28 => withModrm fun b => shEbGb c b .subEbGb
  | 0x29 => withModrm fun b => shEvGv c b .subEvGv
  | 0x2A => withModrm fun b => shGbEb c b .subGbEb
  | 0x2B => withModrm fun b => shGvEv c b .subGvEv
  | 0x2C => shIb c .subALIb
  | 0x2D => shIv c .subEAXIv
  | 0x2F => pure .das
  | 0x30 => withModrm fun b => shEbGb c b .xorEbGb
  | 0x31 => withModrm fun b => shEvGv c b .xorEvGv
  | 0x32 => withModrm fun b => shGbEb c b .xorGbEb
  | 0x33 => withModrm fun b => shGvEv c b .xorGvEv
  | 0x34 => shIb c .xorALIb
  | 0x35 => shIv c .xorEAXIv
  | 0x37 => pure .aaa
  | 0x38 => withModrm fun b => shEbGb c b .cmpEbGb
  | 0x39 => withModrm fun b => shEvGv c b .cmpEvGv
  | 0x3A => withModrm fun b => shGbEb c b .cmpGbEb
  | 0x3B => withModrm fun b => shGvEv c b .cmpGvEv
  | 0x3C => shIb c .cmpALIb
  | 0x3D => shIv c .cmpEAXIv
  | 0x3F => pure .aas
  | 0x40 => pure (.incRv (Gpr.ofNum 0))
  | 0x41 => pure (.incRv (Gpr.ofNum 1))
  | 0x42 => pure (.incRv (Gpr.ofNum 2))
  | 0x43 => pure (.incRv (Gpr.ofNum 3))
  | 0x44 => pure (.incRv (Gpr.ofNum 4))
  | 0x45 => pure (.incRv (Gpr.ofNum 5))
  | 0x46 => pure (.incRv (Gpr.ofNum 6))
  | 0x47 => pure (.incRv (Gpr.ofNum 7))
  | 0x48 => pure (.decRv (Gpr.ofNum 0))
  | 0x49 => pure (.decRv (Gpr.ofNum 1))
  | 0x4A => pure (.decRv (Gpr.ofNum 2))
  | 0x4B => pure (.decRv (Gpr.ofNum 3))
  | 0x4C => pure (.decRv (Gpr.ofNum 4))
  | 0x4D => pure (.decRv (Gpr.ofNum 5))
  | 0x4E => pure (.decRv (Gpr.ofNum 6))
  | 0x4F => pure (.decRv (Gpr.ofNum 7))
  | 0x50 => pure (.pushRv (Gpr.ofNum 0))
  | 0x51 => pure (.pushRv (Gpr.ofNum 1))
  | 0x52 => pure (.pushRv (Gpr.ofNum 2))
  | 0x53 => pure (.pushRv (Gpr.ofNum 3))
  | 0x54 => pure (.pushRv (Gpr.ofNum 4))
  | 0x55 => pure (.pushRv (Gpr.ofNum 5))
  | 0x56 => pure (.pushRv (Gpr.ofNum 6))
  | 0x57 => pure (.pushRv (Gpr.ofNum 7))
  | 0x58 => pure (.popRv (Gpr.ofNum 0))
  | 0x59 => pure (.popRv (Gpr.ofNum 1))
  | 0x5A => pure (.popRv (Gpr.ofNum 2))
  | 0x5B => pure (.popRv (Gpr.ofNum 3))
  | 0x5C => pure (.popRv (Gpr.ofNum 4))
  | 0x5D => pure (.popRv (Gpr.ofNum 5))
  | 0x5E => pure (.popRv (Gpr.ofNum 6))
  | 0x5F => pure (.popRv (Gpr.ofNum 7))
  | 0x60 => pure .pusha
  | 0x61 => pure .popa
  | 0x62 => withModrm fun b => shGvMa c b .boundGvMa
  | 0x63 => withModrm fun b => shEwGw c b .arplEwGw
  | 0x68 => shIv c .pushIv
  | 0x69 => withModrm fun b => shGvEvIv c b .imulGvEvIv
  | 0x6A => shIb c .pushIb
  | 0x6B => withModrm fun b => shGvEvIb c b .imulGvEvIb
  | 0x6C => pure .insb
  | 0x6D => pure .insv
  | 0x6E => pure .outsb
  | 0x6F => pure .outsv
  | 0x70 => shJb c (.jccJb (Cond.ofNum 0))
  | 0x71 => shJb c (.jccJb (Cond.ofNum 1))
  | 0x72 => shJb c (.jccJb (Cond.ofNum 2))
  | 0x73 => shJb c (.jccJb (Cond.ofNum 3))
  | 0x74 => shJb c (.jccJb (Cond.ofNum 4))
  | 0x75 => shJb c (.jccJb (Cond.ofNum 5))
  | 0x76 => shJb c (.jccJb (Cond.ofNum 6))
  | 0x77 => shJb c (.jccJb (Cond.ofNum 7))
  | 0x78 => shJb c (.jccJb (Cond.ofNum 8))
  | 0x79 => shJb c (.jccJb (Cond.ofNum 9))
  | 0x7A => shJb c (.jccJb (Cond.ofNum 10))
  | 0x7B => shJb c (.jccJb (Cond.ofNum 11))
  | 0x7C => shJb c (.jccJb (Cond.ofNum 12))
  | 0x7D => shJb c (.jccJb (Cond.ofNum 13))
  | 0x7E => shJb c (.jccJb (Cond.ofNum 14))
  | 0x7F => shJb c (.jccJb (Cond.ofNum 15))
  | 0x80 => withModrm fun b =>
    match (regField b).toNat with
    | 0 => shEbIb c b .addEbIb
    | 1 => shEbIb c b .orEbIb
    | 2 => shEbIb c b .adcEbIb
    | 3 => shEbIb c b .sbbEbIb
    | 4 => shEbIb c b .andEbIb
    | 5 => shEbIb c b .subEbIb
    | 6 => shEbIb c b .xorEbIb
    | _ => shEbIb c b .cmpEbIb
  | 0x81 => withModrm fun b =>
    match (regField b).toNat with
    | 0 => shEvIv c b .addEvIv
    | 1 => shEvIv c b .orEvIv
    | 2 => shEvIv c b .adcEvIv
    | 3 => shEvIv c b .sbbEvIv
    | 4 => shEvIv c b .andEvIv
    | 5 => shEvIv c b .subEvIv
    | 6 => shEvIv c b .xorEvIv
    | _ => shEvIv c b .cmpEvIv
  | 0x83 => withModrm fun b =>
    match (regField b).toNat with
    | 0 => shEvIb c b .addEvIb
    | 1 => shEvIb c b .orEvIb
    | 2 => shEvIb c b .adcEvIb
    | 3 => shEvIb c b .sbbEvIb
    | 4 => shEvIb c b .andEvIb
    | 5 => shEvIb c b .subEvIb
    | 6 => shEvIb c b .xorEvIb
    | _ => shEvIb c b .cmpEvIb
  | 0x84 => withModrm fun b => shEbGb c b .testEbGb
  | 0x85 => withModrm fun b => shEvGv c b .testEvGv
  | 0x86 => withModrm fun b => shEbGb c b .xchgEbGb
  | 0x87 => withModrm fun b => shEvGv c b .xchgEvGv
  | 0x88 => withModrm fun b => shEbGb c b .movEbGb
  | 0x89 => withModrm fun b => shEvGv c b .movEvGv
  | 0x8A => withModrm fun b => shGbEb c b .movGbEb
  | 0x8B => withModrm fun b => shGvEv c b .movGvEv
  | 0x8C => withModrm fun b => shEwSw c b .movEwSw
  | 0x8D => withModrm fun b => shGvM c b .leaGvM
  | 0x8E => withModrm fun b => shSwEw c b .movSwEw
  | 0x8F => withModrm fun b =>
    match (regField b).toNat with
    | 0 => shEv c b .popEv
    | _ => undefined "no such opcode extension"
  | 0x90 => pure .nop
  | 0x91 => pure (.xchgEAXRv (Gpr.ofNum 1))
  | 0x92 => pure (.xchgEAXRv (Gpr.ofNum 2))
  | 0x93 => pure (.xchgEAXRv (Gpr.ofNum 3))
  | 0x94 => pure (.xchgEAXRv (Gpr.ofNum 4))
  | 0x95 => pure (.xchgEAXRv (Gpr.ofNum 5))
  | 0x96 => pure (.xchgEAXRv (Gpr.ofNum 6))
  | 0x97 => pure (.xchgEAXRv (Gpr.ofNum 7))
  | 0x98 => pure .cbw
  | 0x99 => pure .cwd
  | 0x9A => shAp c .callAp
  | 0x9B => pure .wait
  | 0x9C => pure .pushf
  | 0x9D => pure .popf
  | 0x9E => pure .sahf
  | 0x9F => pure .lahf
  | 0xA0 => shOb c .movALOb
  | 0xA1 => shOv c .movEAXOv
  | 0xA2 => shOb c .movObAL
  | 0xA3 => shOv c .movOvEAX
  | 0xA4 => pure .movsb
  | 0xA5 => pure .movsv
  | 0xA6 => pure .cmpsb
  | 0xA7 => pure .cmpsv
  | 0xA8 => shIb c .testALIb
  | 0xA9 => shIv c .testEAXIv
  | 0xAA => pure .stosb
  | 0xAB => pure .stosv
  | 0xAC => pure .lodsb
  | 0xAD => pure .lodsv
  | 0xAE => pure .scasb
  | 0xAF => pure .scasv
  | 0xB0 => shIb c (.movRbIb (Reg8.ofNum 0))
  | 0xB1 => shIb c (.movRbIb (Reg8.ofNum 1))
  | 0xB2 => shIb c (.movRbIb (Reg8.ofNum 2))
  | 0xB3 => shIb c (.movRbIb (Reg8.ofNum 3))
  | 0xB4 => shIb c (.movRbIb (Reg8.ofNum 4))
  | 0xB5 => shIb c (.movRbIb (Reg8.ofNum 5))
  | 0xB6 => shIb c (.movRbIb (Reg8.ofNum 6))
  | 0xB7 => shIb c (.movRbIb (Reg8.ofNum 7))
  | 0xB8 => shIv c (.movRvIv (Gpr.ofNum 0))
  | 0xB9 => shIv c (.movRvIv (Gpr.ofNum 1))
  | 0xBA => shIv c (.movRvIv (Gpr.ofNum 2))
  | 0xBB => shIv c (.movRvIv (Gpr.ofNum 3))
  | 0xBC => shIv c (.movRvIv (Gpr.ofNum 4))
  | 0xBD => shIv c (.movRvIv (Gpr.ofNum 5))
  | 0xBE => shIv c (.movRvIv (Gpr.ofNum 6))
  | 0xBF => shIv c (.movRvIv (Gpr.ofNum 7))
  | 0xC0 => withModrm fun b =>
    match (regField b).toNat with
    | 0 => shEbIb c b .rolEbIb
    | 1 => shEbIb c b .rorEbIb
    | 2 => shEbIb c b .rclEbIb
    | 3 => shEbIb c b .rcrEbIb
    | 4 => shEbIb c b .shlEbIb
    | 5 => shEbIb c b .shrEbIb
    | 7 => shEbIb c b .sarEbIb
    | _ => undefined "no such opcode extension"
  | 0xC1 => withModrm fun b =>
    match (regField b).toNat with
    | 0 => shEvIb c b .rolEvIb
    | 1 => shEvIb c b .rorEvIb
    | 2 => shEvIb c b .rclEvIb
    | 3 => shEvIb c b .rcrEvIb
    | 4 => shEvIb c b .shlEvIb
    | 5 => shEvIb c b .shrEvIb
    | 7 => shEvIb c b .sarEvIb
    | _ => undefined "no such opcode extension"
  | 0xC2 => shIw c .retIw
  | 0xC3 => pure .ret
  | 0xC4 => withModrm fun b => shGvMp c b .lesGvMp
  | 0xC5 => withModrm fun b => shGvMp c b .ldsGvMp
  | 0xC6 => withModrm fun b =>
    match (regField b).toNat with
    | 0 => shEbIb c b .movEbIb
    | _ => undefined "no such opcode extension"
  | 0xC7 => withModrm fun b =>
    match (regField b).toNat with
    | 0 => shEvIv c b .movEvIv
    | _ => undefined "no such opcode extension"
  | 0xC8 => shIwIb c .enterIwIb
  | 0xC9 => pure .leave
  | 0xCA => shIw c .retfIw
  | 0xCB => pure .retf
  | 0xCC => pure .int3
  | 0xCD => shIb c .intIb
  | 0xCE => pure .into
  | 0xCF => pure .iret
  | 0xD0 => withModrm fun b =>
    match (regField b).toNat with
    | 0 => shEb c b .rolEb1
    | 1 => shEb c b .rorEb1
    | 2 => shEb c b .rclEb1
    | 3 => shEb c b .rcrEb1
    | 4 => shEb c b .shlEb1
    | 5 => shEb c b .shrEb1
    | 7 => shEb c b .sarEb1
    | _ => undefined "no such opcode extension"
  | 0xD1 => withModrm fun b =>
    match (regField b).toNat with
    | 0 => shEv c b .rolEv1
    | 1 => shEv c b .rorEv1
    | 2 => shEv c b .rclEv1
    | 3 => shEv c b .rcrEv1
    | 4 => shEv c b .shlEv1
    | 5 => shEv c b .shrEv1
    | 7 => shEv c b .sarEv1
    | _ => undefined "no such opcode extension"
  | 0xD2 => withModrm fun b =>
    match (regField b).toNat with
    | 0 => shEb c b .rolEbCL
    | 1 => shEb c b .rorEbCL
    | 2 => shEb c b .rclEbCL
    | 3 => shEb c b .rcrEbCL
    | 4 => shEb c b .shlEbCL
    | 5 => shEb c b .shrEbCL
    | 7 => shEb c b .sarEbCL
    | _ => undefined "no such opcode extension"
  | 0xD3 => withModrm fun b =>
    match (regField b).toNat with
    | 0 => shEv c b .rolEvCL
    | 1 => shEv c b .rorEvCL
    | 2 => shEv c b .rclEvCL
    | 3 => shEv c b .rcrEvCL
    | 4 => shEv c b .shlEvCL
    | 5 => shEv c b .shrEvCL
    | 7 => shEv c b .sarEvCL
    | _ => undefined "no such opcode extension"
  | 0xD4 => shIb c .aamIb
  | 0xD5 => shIb c .aadIb
  | 0xD7 => pure .xlat
  | 0xD8 => withModrm fun b => shopE c b .esc0
  | 0xD9 => withModrm fun b => shopE c b .esc1
  | 0xDA => withModrm fun b => shopE c b .esc2
  | 0xDB => withModrm fun b => shopE c b .esc3
  | 0xDC => withModrm fun b => shopE c b .esc4
  | 0xDD => withModrm fun b => shopE c b .esc5
  | 0xDE => withModrm fun b => shopE c b .esc6
  | 0xDF => withModrm fun b => shopE c b .esc7
  | 0xE0 => shJb c .loopneJb
  | 0xE1 => shJb c .loopeJb
  | 0xE2 => shJb c .loopJb
  | 0xE3 => shJb c .jcxzJb
  | 0xE4 => shIb c .inALIb
  | 0xE5 => shIb c .inEAXIb
  | 0xE6 => shIb c .outIbAL
  | 0xE7 => shIb c .outIbEAX
  | 0xE8 => shJv c .callJv
  | 0xE9 => shJv c .jmpJv
  | 0xEA => shAp c .jmpAp
  | 0xEB => shJb c .jmpJb
  | 0xEC => pure .inALDX
  | 0xED => pure .inEAXDX
  | 0xEE => pure .outDXAL
  | 0xEF => pure .outDXEAX
  | 0xF4 => pure .hlt
  | 0xF5 => pure .cmc
  | 0xF6 => withModrm fun b =>
    match (regField b).toNat with
    | 0 => shEbIb c b .testEbIb
    | 2 => shEb c b .notEb
    | 3 => shEb c b .negEb
    | 4 => shEb c b .mulEb
    | 5 => shEb c b .imulEb
    | 6 => shEb c b .divEb
    | 7 => shEb c b .idivEb
    | _ => undefined "no such opcode extension"
  | 0xF7 => withModrm fun b =>
    match (regField b).toNat with
    | 0 => shEvIv c b .testEvIv
    | 2 => shEv c b .notEv
    | 3 => shEv c b .negEv
    | 4 => shEv c b .mulEv
    | 5 => shEv c b .imulEv
    | 6 => shEv c b .divEv
    | 7 => shEv c b .idivEv
    | _ => undefined "no such opcode extension"
  | 0xF8 => pure .clc
  | 0xF9 => pure .stc
  | 0xFA => pure .cli
  | 0xFB => pure .sti
  | 0xFC => pure .cld
  | 0xFD => pure .std
  | 0xFE => withModrm fun b =>
    match (regField b).toNat with
    | 0 => shEb c b .incEb
    | 1 => shEb c b .decEb
    | _ => undefined "no such opcode extension"
  | 0xFF => withModrm fun b =>
    match (regField b).toNat with
    | 0 => shEv c b .incEv
    | 1 => shEv c b .decEv
    | 2 => shEv c b .callEv
    | 3 => shEp c b .callEp
    | 4 => shEv c b .jmpEv
    | 5 => shEp c b .jmpEp
    | 6 => shEv c b .pushEv
    | _ => undefined "no such opcode extension"
  | 0x0F => do twoByte c (← next).toNat
  | _ => undefined "no such opcode"

/-- The prefix a byte is, if it is one of the eleven (30_encoding.md R305). -/
def prefixOf (b : Byte) : Option Instr :=
  match b.toNat with
  | 0x26 => some .pfxES
  | 0x2E => some .pfxCS
  | 0x36 => some .pfxSS
  | 0x3E => some .pfxDS
  | 0x64 => some .pfxFS
  | 0x65 => some .pfxGS
  | 0x66 => some .pfxOpSize
  | 0x67 => some .pfxAddrSize
  | 0xF0 => some .pfxLock
  | 0xF2 => some .pfxRepne
  | 0xF3 => some .pfxRep
  | _ => none

/-- The context after one item: the size prefixes are recorded, not toggled (30_encoding.md R309 to R311). -/
def DecodeCtx.see (c : DecodeCtx) (i : Instr) : DecodeCtx :=
  { c with op66 := c.op66 || i == .pfxOpSize, ad67 := c.ad67 || i == .pfxAddrSize }

/-- Decode one item: a prefix, or an instruction without its prefixes. -/
def decodeOne (c : DecodeCtx) : P Instr := do
  let b ← next
  match prefixOf b with
  | some p => pure p
  | none => oneByte c b.toNat

/-- Decode one whole instruction: its prefixes in order, then the instruction itself, and the bytes after it
(30_encoding.md R301, R303, R305). The 15-byte limit of R302 is the fetch loop's. -/
def decode (c : DecodeCtx) : List Byte → Except DecodeError (List Instr × List Byte)
  | [] => .error .short
  | b :: rest =>
    match prefixOf b with
    | some p =>
      match decode (c.see p) rest with
      | .ok (items, rest') => .ok (p :: items, rest')
      | .error e => .error e
    | none =>
      match (oneByte c b.toNat).run rest with
      | .ok (i, rest') => .ok ([i], rest')
      | .error e => .error e

/-- The `n` low bytes of `w`, most significant first. -/
def bytesBE : Nat → Nat → List Byte
  | 0, _ => []
  | n + 1, w => BitVec.ofNat 8 (w / 256 ^ n) :: bytesBE n w

/-- The bytes of a row of spec/opcode_table.json whose bits are `w`, then zero bytes up to 15 in all. -/
def tableBytes (nbits w : Nat) : List Byte := bytesBE (nbits / 8) w ++ List.replicate (15 - nbits / 8) 0

/-- The instruction the decoder reads from the bits `w` of a row of spec/opcode_table.json, whose strings have
the FIRST byte leftmost, that is most significant (30_encoding.md R344); zero bytes follow, up to 15 bytes. The
default sizes are those after reset, 16 bits (10_state.md R124). Log 10. -/
def decodeTableWord (nbits w : Nat) : Option Instr :=
  match (decodeOne { d32 := false }).run (tableBytes nbits w) with
  | .ok (i, _) => some i
  | .error _ => none

/-! The encoder. -/

/-- A modR/M or SIB byte from its fields (30_encoding.md R320, R322). -/
def modrmByte (md : BitVec 2) (reg rm : BitVec 3) : Byte := md ++ reg ++ rm

/-- An opcode byte with a register number in its low three bits. -/
def opr (b : Byte) (r : BitVec 3) : Byte := b + r.setWidth 8

/-- An opcode byte with a condition number in its low four bits. -/
def opcc (b : Byte) (cc : BitVec 4) : Byte := b + cc.setWidth 8

/-- A word, low byte first. -/
def encW (w : Word) : List Byte := [w.extractLsb' 0 8, w.extractLsb' 8 8]

/-- A doubleword, low byte first. -/
def encD (d : Dword) : List Byte := encW (d.extractLsb' 0 16) ++ encW (d.extractLsb' 16 16)

/-- A doubleword or its low word, by size. -/
def encV (wide : Bool) (v : Dword) : List Byte := if wide then encD v else encW (v.setWidth 16)

/-- The `mod` of a 16-bit displacement. -/
def Disp16.md : Disp16 → BitVec 2
  | .none => 0
  | .d8 _ => 1
  | .d16 _ => 2

/-- The bytes of a 16-bit displacement. -/
def Disp16.enc : Disp16 → List Byte
  | .none => []
  | .d8 b => [b]
  | .d16 w => encW w

/-- The `mod` of a 32-bit displacement. -/
def Disp32.md : Disp32 → BitVec 2
  | .none => 0
  | .d8 _ => 1
  | .d32 _ => 2

/-- The bytes of a 32-bit displacement. -/
def Disp32.enc : Disp32 → List Byte
  | .none => []
  | .d8 b => [b]
  | .d32 d => encD d

/-- The modR/M byte and what follows it, for a memory operand with the given `reg` field. -/
def Mem.enc (reg : BitVec 3) : Mem → List Byte
  | .m16 (.direct d) => modrmByte 0 reg 6 :: encW d
  | .m16 (.based b d) => modrmByte d.md reg b.num :: d.enc
  | .m32 (.direct d) => modrmByte 0 reg 5 :: encD d
  | .m32 (.based r d) => modrmByte d.md reg r.num :: d.enc
  | .m32 (.sib ss idx base d) => modrmByte d.md reg 4 :: modrmByte ss idx.num base.num :: d.enc
  | .m32 (.sibNoBase ss idx d) => modrmByte 0 reg 4 :: modrmByte ss idx.num 5 :: encD d

/-- The modR/M byte and what follows it, for an `E` operand with general registers. -/
def RM.enc (reg : BitVec 3) : RM Gpr → List Byte
  | .reg r => [modrmByte 3 reg r.num]
  | .mem m => m.enc reg

/-- The modR/M byte and what follows it, for an `E` operand with byte registers. -/
def RM.enc8 (reg : BitVec 3) : RM Reg8 → List Byte
  | .reg r => [modrmByte 3 reg r.num]
  | .mem m => m.enc reg


/-- The bytes of a well-formed instruction under the context `c`, from the same maps as the decoder.
Where a field of the encoding is ignored (30_encoding.md R351, R362) the encoder writes mod 3 or 0. -/
def encode (c : DecodeCtx) : Instr → List Byte
  | .addEbGb e g => 0x00 :: RM.enc8 g.num e
  | .addEvGv e g => 0x01 :: RM.enc g.num e
  | .addGbEb g e => 0x02 :: RM.enc8 g.num e
  | .addGvEv g e => 0x03 :: RM.enc g.num e
  | .addALIb ib => 0x04 :: [ib]
  | .addEAXIv iv => 0x05 :: encV c.o32 iv
  | .orEbGb e g => 0x08 :: RM.enc8 g.num e
  | .orEvGv e g => 0x09 :: RM.enc g.num e
  | .orGbEb g e => 0x0A :: RM.enc8 g.num e
  | .orGvEv g e => 0x0B :: RM.enc g.num e
  | .orALIb ib => 0x0C :: [ib]
  | .orEAXIv iv => 0x0D :: encV c.o32 iv
  | .adcEbGb e g => 0x10 :: RM.enc8 g.num e
  | .adcEvGv e g => 0x11 :: RM.enc g.num e
  | .adcGbEb g e => 0x12 :: RM.enc8 g.num e
  | .adcGvEv g e => 0x13 :: RM.enc g.num e
  | .adcALIb ib => 0x14 :: [ib]
  | .adcEAXIv iv => 0x15 :: encV c.o32 iv
  | .sbbEbGb e g => 0x18 :: RM.enc8 g.num e
  | .sbbEvGv e g => 0x19 :: RM.enc g.num e
  | .sbbGbEb g e => 0x1A :: RM.enc8 g.num e
  | .sbbGvEv g e => 0x1B :: RM.enc g.num e
  | .sbbALIb ib => 0x1C :: [ib]
  | .sbbEAXIv iv => 0x1D :: encV c.o32 iv
  | .andEbGb e g => 0x20 :: RM.enc8 g.num e
  | .andEvGv e g => 0x21 :: RM.enc g.num e
  | .andGbEb g e => 0x22 :: RM.enc8 g.num e
  | .andGvEv g e => 0x23 :: RM.enc g.num e
  | .andALIb ib => 0x24 :: [ib]
  | .andEAXIv iv => 0x25 :: encV c.o32 iv
  | .subEbGb e g => 0x28 :: RM.enc8 g.num e
  | .subEvGv e g => 0x29 :: RM.enc g.num e
  | .subGbEb g e => 0x2A :: RM.enc8 g.num e
  | .subGvEv g e => 0x2B :: RM.enc g.num e
  | .subALIb ib => 0x2C :: [ib]
  | .subEAXIv iv => 0x2D :: encV c.o32 iv
  | .xorEbGb e g => 0x30 :: RM.enc8 g.num e
  | .xorEvGv e g => 0x31 :: RM.enc g.num e
  | .xorGbEb g e => 0x32 :: RM.enc8 g.num e
  | .xorGvEv g e => 0x33 :: RM.enc g.num e
  | .xorALIb ib => 0x34 :: [ib]
  | .xorEAXIv iv => 0x35 :: encV c.o32 iv
  | .cmpEbGb e g => 0x38 :: RM.enc8 g.num e
  | .cmpEvGv e g => 0x39 :: RM.enc g.num e
  | .cmpGbEb g e => 0x3A :: RM.enc8 g.num e
  | .cmpGvEv g e => 0x3B :: RM.enc g.num e
  | .cmpALIb ib => 0x3C :: [ib]
  | .cmpEAXIv iv => 0x3D :: encV c.o32 iv
  | .pushES => [0x06]
  | .popES => [0x07]
  | .pushCS => [0x0E]
  | .pushSS => [0x16]
  | .popSS => [0x17]
  | .pushDS => [0x1E]
  | .popDS => [0x1F]
  | .pfxES => [0x26]
  | .daa => [0x27]
  | .pfxCS => [0x2E]
  | .das => [0x2F]
  | .pfxSS => [0x36]
  | .aaa => [0x37]
  | .pfxDS => [0x3E]
  | .aas => [0x3F]
  | .incRv r => [opr 0x40 r.num]
  | .decRv r => [opr 0x48 r.num]
  | .pushRv r => [opr 0x50 r.num]
  | .popRv r => [opr 0x58 r.num]
  | .pusha => [0x60]
  | .popa => [0x61]
  | .boundGvMa g m => 0x62 :: Mem.enc g.num m
  | .arplEwGw e g => 0x63 :: RM.enc g.num e
  | .pfxFS => [0x64]
  | .pfxGS => [0x65]
  | .pfxOpSize => [0x66]
  | .pfxAddrSize => [0x67]
  | .pushIv iv => 0x68 :: encV c.o32 iv
  | .imulGvEvIv g e iv => 0x69 :: (RM.enc g.num e ++ encV c.o32 iv)
  | .pushIb ib => 0x6A :: [ib]
  | .imulGvEvIb g e ib => 0x6B :: (RM.enc g.num e ++ [ib])
  | .insb => [0x6C]
  | .insv => [0x6D]
  | .outsb => [0x6E]
  | .outsv => [0x6F]
  | .jccJb cc jb => opcc 0x70 cc.num :: [jb]
  | .addEbIb e ib => 0x80 :: (RM.enc8 0 e ++ [ib])
  | .addEvIv e iv => 0x81 :: (RM.enc 0 e ++ encV c.o32 iv)
  | .addEvIb e ib => 0x83 :: (RM.enc 0 e ++ [ib])
  | .orEbIb e ib => 0x80 :: (RM.enc8 1 e ++ [ib])
  | .orEvIv e iv => 0x81 :: (RM.enc 1 e ++ encV c.o32 iv)
  | .orEvIb e ib => 0x83 :: (RM.enc 1 e ++ [ib])
  | .adcEbIb e ib => 0x80 :: (RM.enc8 2 e ++ [ib])
  | .adcEvIv e iv => 0x81 :: (RM.enc 2 e ++ encV c.o32 iv)
  | .adcEvIb e ib => 0x83 :: (RM.enc 2 e ++ [ib])
  | .sbbEbIb e ib => 0x80 :: (RM.enc8 3 e ++ [ib])
  | .sbbEvIv e iv => 0x81 :: (RM.enc 3 e ++ encV c.o32 iv)
  | .sbbEvIb e ib => 0x83 :: (RM.enc 3 e ++ [ib])
  | .andEbIb e ib => 0x80 :: (RM.enc8 4 e ++ [ib])
  | .andEvIv e iv => 0x81 :: (RM.enc 4 e ++ encV c.o32 iv)
  | .andEvIb e ib => 0x83 :: (RM.enc 4 e ++ [ib])
  | .subEbIb e ib => 0x80 :: (RM.enc8 5 e ++ [ib])
  | .subEvIv e iv => 0x81 :: (RM.enc 5 e ++ encV c.o32 iv)
  | .subEvIb e ib => 0x83 :: (RM.enc 5 e ++ [ib])
  | .xorEbIb e ib => 0x80 :: (RM.enc8 6 e ++ [ib])
  | .xorEvIv e iv => 0x81 :: (RM.enc 6 e ++ encV c.o32 iv)
  | .xorEvIb e ib => 0x83 :: (RM.enc 6 e ++ [ib])
  | .cmpEbIb e ib => 0x80 :: (RM.enc8 7 e ++ [ib])
  | .cmpEvIv e iv => 0x81 :: (RM.enc 7 e ++ encV c.o32 iv)
  | .cmpEvIb e ib => 0x83 :: (RM.enc 7 e ++ [ib])
  | .testEbGb e g => 0x84 :: RM.enc8 g.num e
  | .testEvGv e g => 0x85 :: RM.enc g.num e
  | .xchgEbGb e g => 0x86 :: RM.enc8 g.num e
  | .xchgEvGv e g => 0x87 :: RM.enc g.num e
  | .movEbGb e g => 0x88 :: RM.enc8 g.num e
  | .movEvGv e g => 0x89 :: RM.enc g.num e
  | .movGbEb g e => 0x8A :: RM.enc8 g.num e
  | .movGvEv g e => 0x8B :: RM.enc g.num e
  | .movEwSw e sr => 0x8C :: RM.enc sr.num e
  | .leaGvM g m => 0x8D :: Mem.enc g.num m
  | .movSwEw sr e => 0x8E :: RM.enc sr.num e
  | .popEv e => 0x8F :: RM.enc 0 e
  | .nop => [0x90]
  | .xchgEAXRv r => [opr 0x90 r.num]
  | .cbw => [0x98]
  | .cwd => [0x99]
  | .callAp off sel => 0x9A :: (encV c.o32 off ++ encW sel)
  | .wait => [0x9B]
  | .pushf => [0x9C]
  | .popf => [0x9D]
  | .sahf => [0x9E]
  | .lahf => [0x9F]
  | .movALOb o => 0xA0 :: encV c.a32 o
  | .movEAXOv o => 0xA1 :: encV c.a32 o
  | .movObAL o => 0xA2 :: encV c.a32 o
  | .movOvEAX o => 0xA3 :: encV c.a32 o
  | .movsb => [0xA4]
  | .movsv => [0xA5]
  | .cmpsb => [0xA6]
  | .cmpsv => [0xA7]
  | .testALIb ib => 0xA8 :: [ib]
  | .testEAXIv iv => 0xA9 :: encV c.o32 iv
  | .stosb => [0xAA]
  | .stosv => [0xAB]
  | .lodsb => [0xAC]
  | .lodsv => [0xAD]
  | .scasb => [0xAE]
  | .scasv => [0xAF]
  | .movRbIb r ib => opr 0xB0 r.num :: [ib]
  | .movRvIv r iv => opr 0xB8 r.num :: encV c.o32 iv
  | .rolEbIb e ib => 0xC0 :: (RM.enc8 0 e ++ [ib])
  | .rolEvIb e ib => 0xC1 :: (RM.enc 0 e ++ [ib])
  | .rorEbIb e ib => 0xC0 :: (RM.enc8 1 e ++ [ib])
  | .rorEvIb e ib => 0xC1 :: (RM.enc 1 e ++ [ib])
  | .rclEbIb e ib => 0xC0 :: (RM.enc8 2 e ++ [ib])
  | .rclEvIb e ib => 0xC1 :: (RM.enc 2 e ++ [ib])
  | .rcrEbIb e ib => 0xC0 :: (RM.enc8 3 e ++ [ib])
  | .rcrEvIb e ib => 0xC1 :: (RM.enc 3 e ++ [ib])
  | .shlEbIb e ib => 0xC0 :: (RM.enc8 4 e ++ [ib])
  | .shlEvIb e ib => 0xC1 :: (RM.enc 4 e ++ [ib])
  | .shrEbIb e ib => 0xC0 :: (RM.enc8 5 e ++ [ib])
  | .shrEvIb e ib => 0xC1 :: (RM.enc 5 e ++ [ib])
  | .sarEbIb e ib => 0xC0 :: (RM.enc8 7 e ++ [ib])
  | .sarEvIb e ib => 0xC1 :: (RM.enc 7 e ++ [ib])
  | .retIw iw => 0xC2 :: encW iw
  | .ret => [0xC3]
  | .lesGvMp g m => 0xC4 :: Mem.enc g.num m
  | .ldsGvMp g m => 0xC5 :: Mem.enc g.num m
  | .movEbIb e ib => 0xC6 :: (RM.enc8 0 e ++ [ib])
  | .movEvIv e iv => 0xC7 :: (RM.enc 0 e ++ encV c.o32 iv)
  | .enterIwIb iw ib => 0xC8 :: (encW iw ++ [ib])
  | .leave => [0xC9]
  | .retfIw iw => 0xCA :: encW iw
  | .retf => [0xCB]
  | .int3 => [0xCC]
  | .intIb ib => 0xCD :: [ib]
  | .into => [0xCE]
  | .iret => [0xCF]
  | .rolEb1 e => 0xD0 :: RM.enc8 0 e
  | .rolEv1 e => 0xD1 :: RM.enc 0 e
  | .rolEbCL e => 0xD2 :: RM.enc8 0 e
  | .rolEvCL e => 0xD3 :: RM.enc 0 e
  | .rorEb1 e => 0xD0 :: RM.enc8 1 e
  | .rorEv1 e => 0xD1 :: RM.enc 1 e
  | .rorEbCL e => 0xD2 :: RM.enc8 1 e
  | .rorEvCL e => 0xD3 :: RM.enc 1 e
  | .rclEb1 e => 0xD0 :: RM.enc8 2 e
  | .rclEv1 e => 0xD1 :: RM.enc 2 e
  | .rclEbCL e => 0xD2 :: RM.enc8 2 e
  | .rclEvCL e => 0xD3 :: RM.enc 2 e
  | .rcrEb1 e => 0xD0 :: RM.enc8 3 e
  | .rcrEv1 e => 0xD1 :: RM.enc 3 e
  | .rcrEbCL e => 0xD2 :: RM.enc8 3 e
  | .rcrEvCL e => 0xD3 :: RM.enc 3 e
  | .shlEb1 e => 0xD0 :: RM.enc8 4 e
  | .shlEv1 e => 0xD1 :: RM.enc 4 e
  | .shlEbCL e => 0xD2 :: RM.enc8 4 e
  | .shlEvCL e => 0xD3 :: RM.enc 4 e
  | .shrEb1 e => 0xD0 :: RM.enc8 5 e
  | .shrEv1 e => 0xD1 :: RM.enc 5 e
  | .shrEbCL e => 0xD2 :: RM.enc8 5 e
  | .shrEvCL e => 0xD3 :: RM.enc 5 e
  | .sarEb1 e => 0xD0 :: RM.enc8 7 e
  | .sarEv1 e => 0xD1 :: RM.enc 7 e
  | .sarEbCL e => 0xD2 :: RM.enc8 7 e
  | .sarEvCL e => 0xD3 :: RM.enc 7 e
  | .aamIb ib => 0xD4 :: [ib]
  | .aadIb ib => 0xD5 :: [ib]
  | .xlat => [0xD7]
  | .esc0 op e => 0xD8 :: RM.enc op e
  | .esc1 op e => 0xD9 :: RM.enc op e
  | .esc2 op e => 0xDA :: RM.enc op e
  | .esc3 op e => 0xDB :: RM.enc op e
  | .esc4 op e => 0xDC :: RM.enc op e
  | .esc5 op e => 0xDD :: RM.enc op e
  | .esc6 op e => 0xDE :: RM.enc op e
  | .esc7 op e => 0xDF :: RM.enc op e
  | .loopneJb jb => 0xE0 :: [jb]
  | .loopeJb jb => 0xE1 :: [jb]
  | .loopJb jb => 0xE2 :: [jb]
  | .jcxzJb jb => 0xE3 :: [jb]
  | .inALIb ib => 0xE4 :: [ib]
  | .inEAXIb ib => 0xE5 :: [ib]
  | .outIbAL ib => 0xE6 :: [ib]
  | .outIbEAX ib => 0xE7 :: [ib]
  | .callJv jv => 0xE8 :: encV c.o32 jv
  | .jmpJv jv => 0xE9 :: encV c.o32 jv
  | .jmpAp off sel => 0xEA :: (encV c.o32 off ++ encW sel)
  | .jmpJb jb => 0xEB :: [jb]
  | .inALDX => [0xEC]
  | .inEAXDX => [0xED]
  | .outDXAL => [0xEE]
  | .outDXEAX => [0xEF]
  | .pfxLock => [0xF0]
  | .pfxRepne => [0xF2]
  | .pfxRep => [0xF3]
  | .hlt => [0xF4]
  | .cmc => [0xF5]
  | .testEbIb e ib => 0xF6 :: (RM.enc8 0 e ++ [ib])
  | .notEb e => 0xF6 :: RM.enc8 2 e
  | .negEb e => 0xF6 :: RM.enc8 3 e
  | .mulEb e => 0xF6 :: RM.enc8 4 e
  | .imulEb e => 0xF6 :: RM.enc8 5 e
  | .divEb e => 0xF6 :: RM.enc8 6 e
  | .idivEb e => 0xF6 :: RM.enc8 7 e
  | .testEvIv e iv => 0xF7 :: (RM.enc 0 e ++ encV c.o32 iv)
  | .notEv e => 0xF7 :: RM.enc 2 e
  | .negEv e => 0xF7 :: RM.enc 3 e
  | .mulEv e => 0xF7 :: RM.enc 4 e
  | .imulEv e => 0xF7 :: RM.enc 5 e
  | .divEv e => 0xF7 :: RM.enc 6 e
  | .idivEv e => 0xF7 :: RM.enc 7 e
  | .clc => [0xF8]
  | .stc => [0xF9]
  | .cli => [0xFA]
  | .sti => [0xFB]
  | .cld => [0xFC]
  | .std => [0xFD]
  | .incEb e => 0xFE :: RM.enc8 0 e
  | .decEb e => 0xFE :: RM.enc8 1 e
  | .incEv e => 0xFF :: RM.enc 0 e
  | .decEv e => 0xFF :: RM.enc 1 e
  | .callEv e => 0xFF :: RM.enc 2 e
  | .callEp m => 0xFF :: Mem.enc 3 m
  | .jmpEv e => 0xFF :: RM.enc 4 e
  | .jmpEp m => 0xFF :: Mem.enc 5 m
  | .pushEv e => 0xFF :: RM.enc 6 e
  | .sldtEw e => 0x0F :: 0x00 :: RM.enc 0 e
  | .strEw e => 0x0F :: 0x00 :: RM.enc 1 e
  | .lldtEw e => 0x0F :: 0x00 :: RM.enc 2 e
  | .ltrEw e => 0x0F :: 0x00 :: RM.enc 3 e
  | .verrEw e => 0x0F :: 0x00 :: RM.enc 4 e
  | .verwEw e => 0x0F :: 0x00 :: RM.enc 5 e
  | .sgdtMs m => 0x0F :: 0x01 :: Mem.enc 0 m
  | .sidtMs m => 0x0F :: 0x01 :: Mem.enc 1 m
  | .lgdtMs m => 0x0F :: 0x01 :: Mem.enc 2 m
  | .lidtMs m => 0x0F :: 0x01 :: Mem.enc 3 m
  | .smswEw e => 0x0F :: 0x01 :: RM.enc 4 e
  | .lmswEw e => 0x0F :: 0x01 :: RM.enc 6 e
  | .larGvEw g e => 0x0F :: 0x02 :: RM.enc g.num e
  | .lslGvEw g e => 0x0F :: 0x03 :: RM.enc g.num e
  | .clts => [0x0F, 0x06]
  | .movRdCd r n => 0x0F :: 0x20 :: [modrmByte 3 n r.num]
  | .movRdDd r n => 0x0F :: 0x21 :: [modrmByte 3 n r.num]
  | .movCdRd n r => 0x0F :: 0x22 :: [modrmByte 3 n r.num]
  | .movDdRd n r => 0x0F :: 0x23 :: [modrmByte 3 n r.num]
  | .movRdTd r n => 0x0F :: 0x24 :: [modrmByte 3 n r.num]
  | .movTdRd n r => 0x0F :: 0x26 :: [modrmByte 3 n r.num]
  | .jccJv cc jv => 0x0F :: opcc 0x80 cc.num :: encV c.o32 jv
  | .setccEb cc e => 0x0F :: opcc 0x90 cc.num :: RM.enc8 0 e
  | .pushFS => [0x0F, 0xA0]
  | .popFS => [0x0F, 0xA1]
  | .btEvGv e g => 0x0F :: 0xA3 :: RM.enc g.num e
  | .shldEvGvIb e g ib => 0x0F :: 0xA4 :: (RM.enc g.num e ++ [ib])
  | .shldEvGvCL e g => 0x0F :: 0xA5 :: RM.enc g.num e
  | .pushGS => [0x0F, 0xA8]
  | .popGS => [0x0F, 0xA9]
  | .btsEvGv e g => 0x0F :: 0xAB :: RM.enc g.num e
  | .shrdEvGvIb e g ib => 0x0F :: 0xAC :: (RM.enc g.num e ++ [ib])
  | .shrdEvGvCL e g => 0x0F :: 0xAD :: RM.enc g.num e
  | .imulGvEv g e => 0x0F :: 0xAF :: RM.enc g.num e
  | .lssGvMp g m => 0x0F :: 0xB2 :: Mem.enc g.num m
  | .btrEvGv e g => 0x0F :: 0xB3 :: RM.enc g.num e
  | .lfsGvMp g m => 0x0F :: 0xB4 :: Mem.enc g.num m
  | .lgsGvMp g m => 0x0F :: 0xB5 :: Mem.enc g.num m
  | .movzxGvEb g e => 0x0F :: 0xB6 :: RM.enc8 g.num e
  | .movzxGvEw g e => 0x0F :: 0xB7 :: RM.enc g.num e
  | .btEvIb e ib => 0x0F :: 0xBA :: (RM.enc 4 e ++ [ib])
  | .btsEvIb e ib => 0x0F :: 0xBA :: (RM.enc 5 e ++ [ib])
  | .btrEvIb e ib => 0x0F :: 0xBA :: (RM.enc 6 e ++ [ib])
  | .btcEvIb e ib => 0x0F :: 0xBA :: (RM.enc 7 e ++ [ib])
  | .btcEvGv e g => 0x0F :: 0xBB :: RM.enc g.num e
  | .bsfGvEv g e => 0x0F :: 0xBC :: RM.enc g.num e
  | .bsrGvEv g e => 0x0F :: 0xBD :: RM.enc g.num e
  | .movsxGvEb g e => 0x0F :: 0xBE :: RM.enc8 g.num e
  | .movsxGvEw g e => 0x0F :: 0xBF :: RM.enc g.num e

end Sys2Proof
end

