-- ==== Sys2Proof/Config.lean ====
section
/-! DEFINITION. What an implementation of the 80386 fixes (00_scope.md R8) and the free values: the values
the manual calls undefined or leaves to the environment. -/

namespace Sys2Proof.Config

/-- The `n`-th value the manual leaves open: `any(32)` of 00_scope.md R22. It has no body, so nothing can be
proved of it; `State.freeCtr` counts the values drawn. Every undefined flag, undefined result, value read from
a port, a device or an absent address, and every choice among allowed behaviours is one draw (log 6). -/
opaque freeValue : Nat → Dword

/-- The stepping part of the identifier in DL after reset (10_state.md R122): DESIGN CHOICE 0 (log 2). -/
def revisionId : Byte := 0

/-- Depth of the prefetch queue in bytes (00_scope.md R8, 20_memory.md R250): DESIGN CHOICE 16 (log 9). -/
def prefetchBytes : Nat := 16

/-- The ways of a TLB set (00_scope.md R8, 10_state.md R105). -/
def tlbWays : Nat := 4

/-- The sets of the TLB (00_scope.md R8, 10_state.md R105). -/
def tlbSets : Nat := 8

/-- What a register holds after reset where the spec leaves it undefined (10_state.md R120 to R130): DESIGN CHOICE 0
(log 1). -/
def undefinedRegister : Dword := 0

/-- Whether the power-on self-test was requested, which decides whether EAX is 0 or undefined after reset (00_scope.md
R8, 10_state.md R121): DESIGN CHOICE no (log 9). -/
def selfTestRequested : Bool := false

/-- The coprocessor attached (00_scope.md R8). -/
inductive Coprocessor where
  /-- No coprocessor: the default of 00_scope.md R8. -/
  | none
  /-- An 80287. -/
  | i287
  /-- An 80387. -/
  | i387
  deriving DecidableEq, Repr

/-- No coprocessor is attached: DESIGN CHOICE, the default of 92_eei_decisions.md D2 (log 9). -/
def coprocessor : Coprocessor := .none

end Sys2Proof.Config
end

