-- ==== Sys2Proof/Machine/State.lean ====
section
/-! DEFINITION. The state of one 80386 (10_state.md R40 to R130), why a step refuses, and the state after
reset. Plain data throughout. -/

namespace Sys2Proof.Machine

/-- The general registers (10_state.md R41). -/
structure Gprs where
  eax : Dword
  ecx : Dword
  edx : Dword
  ebx : Dword
  esp : Dword
  ebp : Dword
  esi : Dword
  edi : Dword
  deriving DecidableEq, Repr

/-- A segment register: visible selector and hidden descriptor (10_state.md R70, R71). -/
structure SegReg where
  sel : Word
  base : Dword
  /-- The limit already scaled by G (20_memory.md R171). -/
  limit : Dword
  /-- The four TYPE bits (20_memory.md R164). -/
  typ : BitVec 4
  /-- S: a code or data segment. -/
  s : Bool
  dpl : BitVec 2
  p : Bool
  /-- The D/B bit (20_memory.md R168). -/
  db : Bool
  g : Bool
  /-- False after a null selector was loaded (20_memory.md R173). -/
  valid : Bool
  deriving DecidableEq, Repr

/-- The six segment registers (10_state.md R70). -/
structure Segs where
  es : SegReg
  cs : SegReg
  ss : SegReg
  ds : SegReg
  fs : SegReg
  gs : SegReg
  deriving DecidableEq, Repr

/-- GDTR or IDTR (10_state.md R75, R76). -/
structure TableReg where
  base : Dword
  limit : Word
  deriving DecidableEq, Repr

/-- LDTR or TR (10_state.md R77, R78). -/
structure SysSeg where
  sel : Word
  base : Dword
  limit : Dword
  valid : Bool
  deriving DecidableEq, Repr

/-- One TLB entry (10_state.md R105). -/
structure TlbEntry where
  /-- The high 20 bits of the linear address. -/
  tag : BitVec 20
  v : Bool
  d : Bool
  u : Bool
  w : Bool
  /-- The high 20 bits of the physical address. -/
  frame : BitVec 20
  deriving DecidableEq, Repr

/-- What the processor is doing (10_state.md R109). -/
inductive RunState where
  | running
  | halted
  | shutdown
  deriving DecidableEq, Repr

/-- What a region of physical memory is (20_memory.md R145). -/
inductive RegionKind where
  | ram
  | rom
  | device
  | absent
  deriving DecidableEq, Repr

/-- One region of PHYS_MAP (20_memory.md R145): `size` bytes from `base`. -/
structure Region where
  base : Nat
  size : Nat
  kind : RegionKind
  deriving DecidableEq, Repr

/-- What the environment sees of one port or device access (20_memory.md R147, R152). A port access has its number
of bytes and the value, zero-extended; a device access lists the bytes of the access that lie in `device`
regions, in address order. -/
inductive IoEvent where
  | portRead (port : Word) (bytes : Nat) (value : Dword)
  | portWrite (port : Word) (bytes : Nat) (value : Dword)
  | deviceRead (bytes : List Host.Cell)
  | deviceWrite (bytes : List Host.Cell)
  /-- An interrupt-acknowledge cycle: the environment gave this vector (60_exceptions.md R912). -/
  | intAck (vector : Byte)
  deriving DecidableEq, Repr

/-- Which repeat prefix is in force (30_encoding.md R307). -/
inductive RepKind where
  | rep
  | repne
  deriving DecidableEq, Repr

/-- The decode context of the instruction being run: what its prefixes said and how long it is. The MODEL's own
field; outside a step it is `Ctx.empty` (log 7). -/
structure Ctx where
  op66 : Bool
  ad67 : Bool
  lock : Bool
  seg : Option Sreg
  rep : Option RepKind
  /-- The length of the instruction in bytes, prefixes included. -/
  len : Nat
  /-- The instruction is one of those that leave RF alone (10_state.md R62). -/
  keepRF : Bool
  deriving DecidableEq, Repr

/-- No prefix seen. -/
def Ctx.empty : Ctx :=
  { op66 := false, ad67 := false, lock := false, seg := none, rep := none, len := 0, keepRF := false }

/-- The whole state of the machine (10_state.md R40). -/
structure State where
  gprs : Gprs
  eip : Dword
  /-- Sequential execution has run past the last offset it may reach, where EIP alone would wrap silently: the next
  fetch raises the exception (10_state.md R52). The MODEL's own field (log 11). -/
  eipOver : Bool
  eflags : Dword
  /-- The current privilege level (10_state.md R73). -/
  cpl : BitVec 2
  segs : Segs
  gdtr : TableReg
  idtr : TableReg
  ldtr : SysSeg
  tr : SysSeg
  cr0 : Dword
  cr2 : Dword
  cr3 : Dword
  dr0 : Dword
  dr1 : Dword
  dr2 : Dword
  dr3 : Dword
  dr6 : Dword
  dr7 : Dword
  tr6 : Dword
  tr7 : Dword
  /-- The TLB entries, 32 with the geometry of Config; entry `tlbWays * set + way` (10_state.md R105, 20_memory.md
  R263). -/
  tlb : List TlbEntry
  /-- Tags written twice by the TLB test command since the last CR3 write (20_memory.md R271, log 8). -/
  tlbDup : List (BitVec 20)
  /-- Bytes already prefetched, by code-segment offset (10_state.md R106, 20_memory.md R250). -/
  prefetch : List (Dword × Byte)
  /-- An NMI is in service (10_state.md R107). -/
  nmiLatch : Bool
  /-- The shadow of MOV SS and POP SS (10_state.md R108, 60_exceptions.md R925). -/
  inhibitSS : Bool
  /-- The shadow of STI (45_flag_misc.md R731). -/
  inhibitSTI : Bool
  /-- A debug trap waits for the next boundary (61_exception_vectors.md R1020, 47_multitasking.md R878). -/
  trapPending : Bool
  run : RunState
  /-- An external interrupt request with its vector (10_state.md R110). -/
  intr : Option Byte
  /-- An NMI request (10_state.md R110). -/
  nmi : Bool
  /-- A RESET request (10_state.md R110). -/
  resetPin : Bool
  /-- Physical memory: address and byte, addresses rising, no listed byte zero (20_memory.md R145, log 4). -/
  mem : List Host.Cell
  /-- PHYS_MAP: an address in no region is RAM (20_memory.md R145, log 5). -/
  physMap : List Region
  /-- The port and device accesses so far, oldest first (20_memory.md R152). -/
  ioLog : List IoEvent
  /-- How many free values have been drawn (log 6). -/
  freeCtr : Nat
  ctx : Ctx
  deriving DecidableEq, Repr

/-- Why the machine stops with a fault. No step of this model does: every exception of the 80386 is taken, and
its physical address space has no address that does not exist (20_memory.md R145, R147). The type has no
constructor, which is safe. -/
inductive Fault where
  deriving DecidableEq, Repr

/-- Why a step gives no meaning. Every constructor is safe: the machine stops where the spec gives no effect. -/
inductive Refusal where
  /-- An instruction not modelled yet, raised by `exec` only. Safe. -/
  | notModelled (mnemonic : String)
  /-- EFLAGS.VM would become 1, by IRET or a task switch; virtual-8086 mode is outside the spec (00_scope.md R6,
  10_state.md R63). Safe. -/
  | virtual8086
  /-- A program leaves a breakpoint enabled in DR7, by MOV; hardware breakpoints are outside the spec
  (00_scope.md R6, 10_state.md R98). Safe. -/
  | breakpointEnabled
  /-- A control transfer, an IDT entry, LTR or a task switch meets an 80286 gate or TSS (20_memory.md R165). Safe. -/
  | descriptor286
  /-- ESC or WAIT with a coprocessor attached (45_flag_misc.md R750, R753). Safe. -/
  | coprocessor
  deriving DecidableEq, Repr

/-- The outcome of an instruction or a step. -/
abbrev Outcome : Type := Host.Outcome State Fault Refusal

/-- A data segment register after reset (10_state.md R124): writable, accessed, expand-up, byte granular. -/
def SegReg.afterReset : SegReg :=
  { sel := 0, base := 0, limit := 0xFFFF, typ := 3, s := true, dpl := 0, p := true, db := false, g := false,
    valid := true }

/-- An LDTR or TR that holds nothing (10_state.md R129). -/
def SysSeg.unusable : SysSeg := { sel := 0, base := 0, limit := 0, valid := false }

/-- A TLB entry that holds nothing. -/
def TlbEntry.invalid : TlbEntry := { tag := 0, v := false, d := false, u := false, w := false, frame := 0 }

/-- CR0 after reset (10_state.md R123, R128): ET says whether an 80387 is there; bits 30:5 are DESIGN CHOICE 0
(log 1). -/
def cr0AfterReset : Dword := if Config.coprocessor = .i387 then 0x10 else 0

/-- The machine right after RESET (10_state.md R120 to R130). A register the spec leaves undefined holds
`Config.undefinedRegister` (log 1); logs 2 to 8 name the other values the spec does not give. -/
def State.reset : State :=
  { gprs :=
      { eax := if Config.selfTestRequested then 0 else Config.undefinedRegister
        ecx := Config.undefinedRegister
        edx := 0x300#32 ||| Config.revisionId.setWidth 32
        ebx := Config.undefinedRegister
        esp := Config.undefinedRegister
        ebp := Config.undefinedRegister
        esi := Config.undefinedRegister
        edi := Config.undefinedRegister }
    eip := 0xFFF0
    eipOver := false
    eflags := 2
    cpl := 0
    segs :=
      { es := .afterReset, cs := { SegReg.afterReset with sel := 0xF000, base := 0xFFFF0000 }, ss := .afterReset,
        ds := .afterReset, fs := .afterReset, gs := .afterReset }
    gdtr := { base := 0, limit := 0xFFFF }
    idtr := { base := 0, limit := 0x3FF }
    ldtr := .unusable
    tr := .unusable
    cr0 := cr0AfterReset
    cr2 := Config.undefinedRegister
    cr3 := 0
    dr0 := Config.undefinedRegister
    dr1 := Config.undefinedRegister
    dr2 := Config.undefinedRegister
    dr3 := Config.undefinedRegister
    dr6 := Config.undefinedRegister
    dr7 := 0
    tr6 := Config.undefinedRegister
    tr7 := Config.undefinedRegister
    tlb := List.replicate (Config.tlbWays * Config.tlbSets) .invalid
    tlbDup := []
    prefetch := []
    nmiLatch := false
    inhibitSS := false
    inhibitSTI := false
    trapPending := false
    run := .running
    intr := none
    nmi := false
    resetPin := false
    mem := []
    physMap := []
    ioLog := []
    freeCtr := 0
    ctx := .empty }

end Sys2Proof.Machine
end

