-- ==== Sys2Proof/Machine/Bits.lean ====
section
/-! DEFINITION. Bit and byte helpers: single bits of a doubleword, little-endian byte order
(20_memory.md R141), and partial writes of a register (10_state.md R42, R43). -/

namespace Sys2Proof.Machine

/-- `v` with bit `i` made `b`. -/
def putBit {n : Nat} (v : BitVec n) (i : Nat) (b : Bool) : BitVec n :=
  if b then v ||| (1#n <<< i) else v &&& ~~~(1#n <<< i)

/-- `v` with its `w` bits from bit `lo` replaced by `x`. -/
def putField {n w : Nat} (v : BitVec n) (lo : Nat) (x : BitVec w) : BitVec n :=
  (v &&& ~~~((BitVec.allOnes w).setWidth n <<< lo)) ||| (x.setWidth n <<< lo)

/-- `old` with its low `w` bits replaced by `x`: what a byte or word register write leaves (10_state.md R42). -/
def putLow {n w : Nat} (old : BitVec n) (x : BitVec w) : BitVec n := putField old 0 x

/-- The number a list of bytes holds, first byte least significant (20_memory.md R141). -/
def leNat : List Byte → Nat
  | [] => 0
  | b :: bs => b.toNat + 256 * leNat bs

/-- The value of `w` bits a list of bytes holds, first byte least significant (20_memory.md R141). -/
def leVal (w : Nat) (bs : List Byte) : BitVec w := BitVec.ofNat w (leNat bs)

/-- The `n` low bytes of a value, least significant first (20_memory.md R141). -/
def leBytes : Nat → {w : Nat} → BitVec w → List Byte
  | 0, _, _ => []
  | n + 1, _, v => v.setWidth 8 :: leBytes n (v >>> 8)

/-- The even parity of the low eight bits (10_state.md R55, PF). -/
def parity {n : Nat} (r : BitVec n) : Bool :=
  !(r.getLsbD 0 ^^ r.getLsbD 1 ^^ r.getLsbD 2 ^^ r.getLsbD 3 ^^ r.getLsbD 4 ^^ r.getLsbD 5 ^^ r.getLsbD 6 ^^
    r.getLsbD 7)

/-- One bit as a value. -/
def bitVal {n : Nat} (b : Bool) : BitVec n := if b then 1#n else 0#n

end Sys2Proof.Machine
end

