-- ==== Sys2Proof/Machine/Monad.lean ====
section
/-! DEFINITION. How the meaning of an instruction is written: a computation over a working state that either
ends, raises an exception, or refuses. Beside the working state stands the state a fault goes back to
(00_scope.md R24, 92_eei_decisions.md D18, D25). -/

namespace Sys2Proof.Machine

/-- An exception the processor detected: its vector and its error code, if it has one (60_exceptions.md R900). -/
structure Exc where
  vec : Byte
  err : Option Word
  deriving DecidableEq, Repr

/-- Why a computation ends early. -/
inductive Stop where
  | raise (e : Exc)
  | refuse (r : Refusal)
  deriving DecidableEq, Repr

/-- The working state, the state a fault leaves, and the EXT bit of error codes raised now (60_exceptions.md
R930). -/
structure Tx where
  cur : State
  base : State
  ext : Bool
  deriving DecidableEq, Repr

/-- A computation. -/
abbrev M (α : Type) : Type := EStateM Stop Tx α

/-- Read from the working state. -/
def look {α : Type} (f : State → α) : M α := fun t => .ok (f t.cur) t

/-- Change the working state; a later fault undoes it. -/
def upd (f : State → State) : M Unit := fun t => .ok () { t with cur := f t.cur }

/-- Change both states: what a later fault does not undo (92_eei_decisions.md D18, D25): CR2, accessed and dirty
bits, the TLB, the environment's events, the count of free values. -/
def updBoth (f : State → State) : M Unit := fun t => .ok () { t with cur := f t.cur, base := f t.base }

/-- Make all changes so far permanent: the commit point of a task switch (47_multitasking.md R870), the acknowledge of the
event that caused it included (log 33). An exception raised after it is taken in the new task and saves its CS:EIP, also
where the switch was made to deliver another exception (log 40). -/
def commit : M Unit := fun t => .ok () { t with base := t.cur }

/-- Raise an exception. -/
def raise {α : Type} (vec : Byte) (err : Option Word) : M α := throw (.raise { vec := vec, err := err })

/-- Refuse (00_scope.md R23). -/
def refuse {α : Type} (r : Refusal) : M α := throw (.refuse r)

/-- Raise an exception without error code. -/
def raisePlain {α : Type} (vec : Byte) : M α := raise vec none

/-- Raise an exception with an error code, to which EXT is added (60_exceptions.md R930). -/
def raiseCode {α : Type} (vec : Byte) (code : Word) : M α := fun t =>
  raise vec (some (code ||| bitVal t.ext)) t

/-- Raise an exception whose error code is a selector (20_memory.md R175, 60_exceptions.md R930). -/
def raiseSel {α : Type} (vec : Byte) (sel : Word) : M α := raiseCode vec (sel &&& 0xFFFC)

/-- #DE, divide error (61_exception_vectors.md R973). -/
def raiseDE {α : Type} : M α := raisePlain 0
/-- #BR, bounds check (61_exception_vectors.md R978). -/
def raiseBR {α : Type} : M α := raisePlain 5
/-- #UD, invalid opcode (61_exception_vectors.md R979). -/
def raiseUD {α : Type} : M α := raisePlain 6
/-- #NM, coprocessor not available (61_exception_vectors.md R980). -/
def raiseNM {α : Type} : M α := raisePlain 7
/-- #GP with error code 0 (61_exception_vectors.md R985). -/
def raiseGP0 {α : Type} : M α := raiseCode 13 0
/-- #SS with error code 0 (61_exception_vectors.md R984). -/
def raiseSS0 {α : Type} : M α := raiseCode 12 0
/-- #TS with a selector (61_exception_vectors.md R982). -/
def raiseTS {α : Type} (sel : Word) : M α := raiseSel 10 sel
/-- #NP with a selector (61_exception_vectors.md R983). -/
def raiseNP {α : Type} (sel : Word) : M α := raiseSel 11 sel
/-- #SS with a selector (61_exception_vectors.md R984). -/
def raiseSS {α : Type} (sel : Word) : M α := raiseSel 12 sel
/-- #GP with a selector (61_exception_vectors.md R985). -/
def raiseGP {α : Type} (sel : Word) : M α := raiseSel 13 sel

/-- Raise `act` unless `ok` holds. -/
def need (ok : Bool) (act : M Unit) : M Unit := if ok then pure () else act

/-- The next value the manual leaves open: `any(32)` of 00_scope.md R23 (log 6). -/
def anyD : M Dword := do
  let n ← look (·.freeCtr)
  updBoth fun s => { s with freeCtr := s.freeCtr + 1 }
  pure (Config.freeValue n)

/-- An open value of `w` bits. -/
def anyBits (w : Nat) : M (BitVec w) := do pure ((← anyD).setWidth w)

/-- An open bit. -/
def anyBool : M Bool := do pure ((← anyD).getLsbD 0)

end Sys2Proof.Machine
end

