-- ==== Sys2Proof/Machine/Memory.lean ====
section
/-! DEFINITION. Physical memory and its regions (20_memory.md R141 to R147), page translation (R220 to R235) and
the TLB (R231, R260 to R264). -/

namespace Sys2Proof.Machine

/-- The byte at a physical address: the listed byte, or 00H where none is listed (log 4). -/
def memGet : List Host.Cell → Nat → Byte
  | [], _ => 0
  | (a, b) :: rest, x => if a = x then b else memGet rest x

/-- Memory with one byte changed. The canonical form is kept: addresses rise, and no byte 00H is listed. -/
def memSet : List Host.Cell → Nat → Byte → List Host.Cell
  | [], x, v => if v = 0 then [] else [(x, v)]
  | (a, b) :: rest, x, v =>
    if x < a then (if v = 0 then (a, b) :: rest else (x, v) :: (a, b) :: rest)
    else if x = a then (if v = 0 then rest else (a, v) :: rest)
    else (a, b) :: memSet rest x v

/-- The canonical form of memory: addresses strictly rising and below 2^32, no listed byte 00H. -/
def Memory.wf (m : List Host.Cell) : Bool :=
  decide (List.Pairwise (fun a b => a.1 < b.1) m) && m.all fun c => c.2 != 0 && decide (c.1 < 2 ^ 32)

/-- What stands at a physical address (20_memory.md R145); an address in no region is RAM (log 5). -/
def State.kindAt (s : State) (pa : Nat) : RegionKind :=
  match s.physMap.find? fun r => decide (r.base ≤ pa ∧ pa < r.base + r.size) with
  | some r => r.kind
  | none => .ram

/-- The byte of RAM or ROM at a physical address. -/
def State.byteAt (s : State) (pa : Dword) : Byte := memGet s.mem pa.toNat

/-- Store a byte at a physical address; only RAM takes it (20_memory.md R147). -/
def State.storeByte (s : State) (pa : Dword) (b : Byte) : State :=
  match s.kindAt pa.toNat with
  | .ram => { s with mem := memSet s.mem pa.toNat b }
  | .rom | .device | .absent => s

/-- Append one event for the environment. -/
def State.event (s : State) (e : IoEvent) : State := { s with ioLog := s.ioLog ++ [e] }

/-- The bytes of an access that lie in `device` regions. -/
def State.deviceCells (s : State) (pas : List Dword) (bs : List Byte) : List Host.Cell :=
  ((pas.map (·.toNat)).zip bs).filter fun c => s.kindAt c.1 == .device

/-- One byte read: RAM and ROM give their byte, a device or an absent address any value (20_memory.md R147). -/
def readByte (pa : Dword) : M Byte := do
  match ← look (·.kindAt pa.toNat) with
  | .ram | .rom => look (·.byteAt pa)
  | .device | .absent => anyBits 8

/-- One access of the bytes `bs` at `pas`, as the environment sees it: one event for those of its bytes that lie in
`device` regions, which stays whatever follows (20_memory.md R147; log 26). -/
def showDevice (e : List Host.Cell → IoEvent) (pas : List Dword) (bs : List Byte) : M Unit := do
  let cells ← look (·.deviceCells pas bs)
  if cells = [] then pure () else updBoth (·.event (e cells))

/-- The bytes at the physical addresses `pas`, as one access (20_memory.md R141, R147). -/
def readPhys (pas : List Dword) : M (List Byte) := do
  let bs ← pas.mapM readByte
  showDevice .deviceRead pas bs
  pure bs

/-- Store bytes at the physical addresses `pas`, one by one. -/
def State.storeBytes (s : State) (pas : List Dword) (bs : List Byte) : State :=
  (pas.zip bs).foldl (fun s c => s.storeByte c.1 c.2) s

/-- Write the bytes `bs` at the physical addresses `pas`, as one access (20_memory.md R141, R147), in memory before the
next access begins: no data fence is needed (20_memory.md R241, R242). -/
def writePhys (pas : List Dword) (bs : List Byte) : M Unit := do
  showDevice .deviceWrite pas bs
  upd (·.storeBytes pas bs)

/-- Set bits of the byte at a physical address for good: an accessed or dirty bit (20_memory.md R225, R167;
92_eei_decisions.md D25). -/
def setBitsAt (pa : Dword) (bits : Byte) : M Unit :=
  updBoth fun s => s.storeByte pa (s.byteAt pa ||| bits)

/-- The `n` physical addresses from `pa` on, wrapping at 2^32. -/
def addrsFrom (pa : Dword) (n : Nat) : List Dword := (List.range n).map fun i => pa + BitVec.ofNat 32 i

/-- A doubleword at a physical address. -/
def physReadD (pa : Dword) : M Dword := do pure (leVal 32 (← readPhys (addrsFrom pa 4)))

/-! CR0 bits (10_state.md R80). -/

/-- Protection enable (10_state.md R81). -/
def State.pe (s : State) : Bool := s.cr0.getLsbD 0
/-- Math present (10_state.md R82). -/
def State.mp (s : State) : Bool := s.cr0.getLsbD 1
/-- Emulation (10_state.md R83). -/
def State.em (s : State) : Bool := s.cr0.getLsbD 2
/-- Task switched (10_state.md R84). -/
def State.ts (s : State) : Bool := s.cr0.getLsbD 3
/-- Paging (10_state.md R86). -/
def State.pg (s : State) : Bool := s.cr0.getLsbD 31

/-! The TLB (10_state.md R105). -/

/-- The set a linear address selects: la[14:12] with 8 sets (20_memory.md R263). -/
def tlbSet (la : Dword) : Nat := (la.extractLsb' 12 20).toNat % Config.tlbSets

/-- The tag of a linear address. -/
def tlbTag (la : Dword) : BitVec 20 := la.extractLsb' 12 20

/-- Entry `way` of the set of `la`. -/
def State.tlbEntry (s : State) (la : Dword) (way : Nat) : TlbEntry :=
  (s.tlb[Config.tlbWays * tlbSet la + way]?).getD .invalid

/-- Replace entry `way` of the set of `la`. -/
def State.setTlbEntry (s : State) (la : Dword) (way : Nat) (e : TlbEntry) : State :=
  { s with tlb := s.tlb.set (Config.tlbWays * tlbSet la + way) e }

/-- The ways of the set of `la` that hold a valid entry for it (20_memory.md R231). -/
def State.tlbHits (s : State) (la : Dword) : List Nat :=
  (List.range Config.tlbWays).filter fun way => (s.tlbEntry la way).v && (s.tlbEntry la way).tag == tlbTag la

/-- Every entry made invalid, so that the next access of every page walks the tables as they then stand: with no fence
instruction, the write of CR3 that does this is what orders translation after writes to the tables (20_memory.md R242,
R262). -/
def State.flushTlb (s : State) : State :=
  { s with tlb := s.tlb.map fun e => { e with v := false }, tlbDup := [] }

/-- Consult the TLB (20_memory.md R231). A present entry may have vanished (92_eei_decisions.md D14), which a
free bit decides; a tag that was written twice gives free contents (93_implementation_defined.md U8b). -/
def tlbLookup (la : Dword) : M (Option TlbEntry) := do
  if (← look (·.tlbDup)).contains (tlbTag la) then
    let x ← anyD
    if x.getLsbD 3 then pure none
    else
      pure (some { tag := tlbTag la, v := true, d := x.getLsbD 0, u := x.getLsbD 1, w := x.getLsbD 2,
                   frame := x.extractLsb' 12 20 })
  else
    match ← look (·.tlbHits la) with
    | [] => pure none
    | way :: _ =>
      let gone ← anyBool
      if gone then
        updBoth fun s => s.setTlbEntry la way { s.tlbEntry la way with v := false }
        pure none
      else
        let e ← look (·.tlbEntry la way)
        pure (some e)

/-- Place an entry after a successful walk (20_memory.md R263, R264): in the way that holds the tag, else in a
freely chosen way. -/
def tlbFill (la : Dword) (e : TlbEntry) : M Unit := do
  match ← look (·.tlbHits la) with
  | way :: _ => updBoth (·.setTlbEntry la way e)
  | [] =>
    let x ← anyD
    updBoth (·.setTlbEntry la (x.toNat % Config.tlbWays) e)

/-- A page fault at the linear address `la` (20_memory.md R232, 61_exception_vectors.md R987). -/
def pageFault {α : Type} (la : Dword) (present write user : Bool) : M α := do
  updBoth fun s => { s with cr2 := la }
  raise 14 (some (putBit (putBit (putBit 0 0 present) 1 write) 2 user))

/-- Set accessed and dirty bits of a page-table entry at `pa` that was read as `entry`: one write of 4 bytes, those in
`device` regions shown to the environment (20_memory.md R225, R230). In RAM only the lowest byte changes, for good; the
other three hold what is written. -/
def markEntry (pa entry : Dword) (bits : Byte) : M Unit := do
  showDevice .deviceWrite (addrsFrom pa 4) (leBytes 4 (entry ||| bits.setWidth 32))
  setBitsAt pa bits

/-- The walk of the two page-table levels (20_memory.md R230). -/
def pageWalk (la : Dword) (write user : Bool) : M Dword := do
  let cr3 ← look (·.cr3)
  let pdeAddr : Dword := cr3.extractLsb' 12 20 ++ la.extractLsb' 22 10 ++ 0#2
  let pde ← physReadD pdeAddr
  if !pde.getLsbD 0 then pageFault la false write user
  else
    let pteAddr : Dword := pde.extractLsb' 12 20 ++ la.extractLsb' 12 10 ++ 0#2
    let pte ← physReadD pteAddr
    if !pte.getLsbD 0 then pageFault la false write user
    else
      let u := pde.getLsbD 2 && pte.getLsbD 2
      let w := pde.getLsbD 1 && pte.getLsbD 1
      if user && (!u || (write && !w)) then pageFault la true write user
      else
        if !pde.getLsbD 5 then markEntry pdeAddr pde 0x20
        if !pte.getLsbD 5 || (write && !pte.getLsbD 6) then
          markEntry pteAddr pte (if write then 0x60 else 0x20)
        let frame : BitVec 20 := pte.extractLsb' 12 20
        tlbFill la { tag := tlbTag la, v := true, d := pte.getLsbD 6 || write, u := u, w := w, frame := frame }
        pure (frame ++ la.extractLsb' 0 12)

/-- Linear to physical address (20_memory.md R220, R230). -/
def translate (la : Dword) (write user : Bool) : M Dword := do
  if ← look (·.pg) then
    match ← tlbLookup la with
    | some e =>
      if write && !e.d then pageWalk la write user
      else if user && (!e.u || (write && !e.w)) then pageFault la true write user
      else pure (e.frame ++ la.extractLsb' 0 12)
    | none => pageWalk la write user
  else pure la

/-- The physical addresses of the `n` bytes from the linear address `la` on: one translation per page, all pages
before any access (20_memory.md R230, R233). For a write each page is marked dirty here, even where a later check faults
(DEDUCED, log 38). -/
def linPlan (la : Dword) (n : Nat) (write user : Bool) : M (List Dword) := do
  let left := 4096 - (la.extractLsb' 0 12).toNat
  let pa ← translate la write user
  if n ≤ left then pure (addrsFrom pa n)
  else
    let pb ← translate (la + BitVec.ofNat 32 left) write user
    pure (addrsFrom pa left ++ addrsFrom pb (n - left))

/-- `LinRead` (20_memory.md R230): the bytes at a linear address. -/
def linRead (la : Dword) (n : Nat) (user : Bool) : M (List Byte) := do
  readPhys (← linPlan la n false user)

/-- `LinWrite` (20_memory.md R230). -/
def linWrite (la : Dword) (bs : List Byte) (user : Bool) : M Unit := do
  writePhys (← linPlan la bs.length true user) bs

/-- The current access is at user level (20_memory.md R228, R229). -/
def isUser : M Bool := look fun s => s.cpl == 3

end Sys2Proof.Machine
end

