-- ==== Sys2Proof/Machine/Segment.lean ====
section
/-! DEFINITION. General and segment registers, descriptors (20_memory.md R160 to R184), the checks on every
access through a segment (R200 to R210), and the stack (40_data_movement.md R401, R402). -/

namespace Sys2Proof.Machine

/-! General registers (10_state.md R41 to R44). -/

/-- Read a general register. -/
def Gprs.get (g : Gprs) : Gpr → Dword
  | .eax => g.eax
  | .ecx => g.ecx
  | .edx => g.edx
  | .ebx => g.ebx
  | .esp => g.esp
  | .ebp => g.ebp
  | .esi => g.esi
  | .edi => g.edi

/-- Write a general register. -/
def Gprs.set (g : Gprs) (r : Gpr) (v : Dword) : Gprs :=
  match r with
  | .eax => { g with eax := v }
  | .ecx => { g with ecx := v }
  | .edx => { g with edx := v }
  | .ebx => { g with ebx := v }
  | .esp => { g with esp := v }
  | .ebp => { g with ebp := v }
  | .esi => { g with esi := v }
  | .edi => { g with edi := v }

/-- A general register of the state. -/
def State.gpr (s : State) (r : Gpr) : Dword := s.gprs.get r

/-- Write a general register of the state. -/
def State.setGpr (s : State) (r : Gpr) (v : Dword) : State := { s with gprs := s.gprs.set r v }

/-- The low `w` bits of a general register (10_state.md R42). -/
def State.gprLow (s : State) (w : Nat) (r : Gpr) : BitVec w := (s.gpr r).setWidth w

/-- Write the low bits of a general register; the others stay (10_state.md R42). -/
def State.setGprLow (s : State) {w : Nat} (r : Gpr) (v : BitVec w) : State := s.setGpr r (putLow (s.gpr r) v)

/-- The general register a byte register is part of, and its lowest bit (10_state.md R43). -/
def Reg8.home : Reg8 → Gpr × Nat
  | .al => (.eax, 0)
  | .cl => (.ecx, 0)
  | .dl => (.edx, 0)
  | .bl => (.ebx, 0)
  | .ah => (.eax, 8)
  | .ch => (.ecx, 8)
  | .dh => (.edx, 8)
  | .bh => (.ebx, 8)

/-- Read a byte register (10_state.md R43). -/
def State.reg8 (s : State) (r : Reg8) : Byte := (s.gpr (Reg8.home r).1).extractLsb' (Reg8.home r).2 8

/-- Write a byte register; the other 24 bits stay (10_state.md R43). -/
def State.setReg8 (s : State) (r : Reg8) (v : Byte) : State :=
  s.setGpr (Reg8.home r).1 (putField (s.gpr (Reg8.home r).1) (Reg8.home r).2 v)

/-! Segment registers (10_state.md R70). -/

/-- Read a segment register. -/
def Segs.get (g : Segs) : Sreg → SegReg
  | .es => g.es
  | .cs => g.cs
  | .ss => g.ss
  | .ds => g.ds
  | .fs => g.fs
  | .gs => g.gs

/-- Write a segment register. -/
def Segs.set (g : Segs) (r : Sreg) (v : SegReg) : Segs :=
  match r with
  | .es => { g with es := v }
  | .cs => { g with cs := v }
  | .ss => { g with ss := v }
  | .ds => { g with ds := v }
  | .fs => { g with fs := v }
  | .gs => { g with gs := v }

/-- A segment register of the state. -/
def State.seg (s : State) (r : Sreg) : SegReg := s.segs.get r

/-- Write a segment register of the state. -/
def State.setSeg (s : State) (r : Sreg) (v : SegReg) : State := { s with segs := s.segs.set r v }

/-! Descriptors (20_memory.md R161). -/

/-- A descriptor as read from its table, with the linear address it was read from. -/
structure Desc where
  raw : BitVec 64
  addr : Dword
  deriving DecidableEq, Repr

/-- BASE (20_memory.md R162). -/
def Desc.base (d : Desc) : Dword := d.raw.extractLsb' 56 8 ++ d.raw.extractLsb' 16 24
/-- The 20-bit LIMIT (20_memory.md R163). -/
def Desc.limit20 (d : Desc) : BitVec 20 := d.raw.extractLsb' 48 4 ++ d.raw.extractLsb' 0 16
/-- G (20_memory.md R161). -/
def Desc.g (d : Desc) : Bool := d.raw.getLsbD 55
/-- D or B (20_memory.md R168). -/
def Desc.db (d : Desc) : Bool := d.raw.getLsbD 54
/-- P (20_memory.md R166). -/
def Desc.p (d : Desc) : Bool := d.raw.getLsbD 47
/-- DPL (20_memory.md R166). -/
def Desc.dpl (d : Desc) : BitVec 2 := d.raw.extractLsb' 45 2
/-- S (20_memory.md R161). -/
def Desc.s (d : Desc) : Bool := d.raw.getLsbD 44
/-- TYPE (20_memory.md R164, R165). -/
def Desc.typ (d : Desc) : BitVec 4 := d.raw.extractLsb' 40 4
/-- The access byte (20_memory.md R161). -/
def Desc.access (d : Desc) : Byte := d.raw.extractLsb' 40 8
/-- The selector of a gate (43_control_transfer.md R586, 60_exceptions.md R936). -/
def Desc.gateSel (d : Desc) : Word := d.raw.extractLsb' 16 16
/-- The offset of a gate (43_control_transfer.md R586, 60_exceptions.md R936). -/
def Desc.gateOff (d : Desc) : Dword := d.raw.extractLsb' 48 16 ++ d.raw.extractLsb' 0 16
/-- The doubleword count of a call gate (43_control_transfer.md R586). -/
def Desc.gateCount (d : Desc) : BitVec 5 := d.raw.extractLsb' 32 5

/-- The scaled limit (20_memory.md R171): page units fill the low 12 bits with ones. -/
def Desc.limit32 (d : Desc) : Dword :=
  if d.g then (d.limit20.setWidth 32 <<< 12) ||| 0xFFF else d.limit20.setWidth 32

/-- A code segment (20_memory.md R164). -/
def Desc.isCode (d : Desc) : Bool := d.s && d.typ.getLsbD 3
/-- A conforming code segment (20_memory.md R164). -/
def Desc.conforming (d : Desc) : Bool := d.typ.getLsbD 2
/-- A writable data segment (20_memory.md R164). -/
def Desc.writableData (d : Desc) : Bool := d.s && !d.typ.getLsbD 3 && d.typ.getLsbD 1
/-- A segment that data can be read from (20_memory.md R164). -/
def Desc.readable (d : Desc) : Bool := d.s && !(d.typ.getLsbD 3 && !d.typ.getLsbD 1)

/-- RPL of a selector (20_memory.md R172). -/
def rpl (sel : Word) : BitVec 2 := sel.extractLsb' 0 2
/-- TI of a selector (20_memory.md R172). -/
def ti (sel : Word) : Bool := sel.getLsbD 2
/-- The null selectors 0000H to 0003H (20_memory.md R173). -/
def isNull (sel : Word) : Bool := sel.extractLsb' 2 14 == 0
/-- A selector with its RPL replaced. -/
def withRpl (sel : Word) (r : BitVec 2) : Word := (sel &&& 0xFFFC) ||| r.setWidth 16

/-- The table a selector names: base and limit, or none for an LDT that is not there (20_memory.md R174, R184). -/
def State.descTable (s : State) (sel : Word) : Option (Dword × Dword) :=
  if ti sel then (if s.ldtr.valid then some (s.ldtr.base, s.ldtr.limit) else none)
  else some (s.gdtr.base, s.gdtr.limit.setWidth 32)

/-- The 8 bytes of a descriptor at the physical addresses `pas`, read as two doublewords (20_memory.md R174). -/
def readDesc (pas : List Dword) : M (BitVec 64) := do
  let lo ← readPhys (pas.take 4)
  let hi ← readPhys (pas.drop 4)
  pure (leVal 64 (lo ++ hi))

/-- `FetchDescriptor` (20_memory.md R174): none where the rule says fail. Supervisor access (R229); a page fault comes
before any byte is read. -/
def fetchDesc (sel : Word) : M (Option Desc) := do
  match ← look (·.descTable sel) with
  | none => pure none
  | some (tb, tl) =>
    let index := (sel.extractLsb' 3 13).toNat
    if index * 8 + 7 > tl.toNat then pure none
    else
      let addr := tb + BitVec.ofNat 32 (index * 8)
      let raw ← readDesc (← linPlan addr 8 false false)
      pure (some { raw := raw, addr := addr })

/-- A descriptor, or the exception of the caller (20_memory.md R174). -/
def fetchDescOr (sel : Word) (fail : M Desc) : M Desc := do
  match ← fetchDesc sel with
  | some d => pure d
  | none => fail

/-- Set bits of the byte at a linear address for good, as a supervisor write (20_memory.md R167, R229). A byte in a
`device` region is read once more and written back with the bits set, both of which the environment sees (log 30). -/
def linSetBits (la : Dword) (bits : Byte) : M Unit := do
  (← linPlan la 1 true false).forM fun pa => do
    if ← look fun s => s.kindAt pa.toNat == .device then
      let old ← readPhys [pa]
      writePhys [pa] (old.map (· ||| bits))
    else setBitsAt pa bits

/-- Set the accessed bit of a descriptor if it is clear (20_memory.md R167). -/
def setAccessed (d : Desc) : M Unit := do
  if !d.typ.getLsbD 0 then linSetBits (d.addr + 5) 1

/-- The DPL of a descriptor admits CPL and the RPL of the selector that names it (43_control_transfer.md R587,
46_system.md R816, 47_multitasking.md R866). -/
def State.mayUse (s : State) (d : Desc) (sel : Word) : Bool :=
  decide (s.cpl.toNat ≤ d.dpl.toNat ∧ (rpl sel).toNat ≤ d.dpl.toNat)

/-- The hidden part a descriptor gives a segment register (20_memory.md R180). -/
def Desc.toSeg (d : Desc) (sel : Word) : SegReg :=
  { sel := sel, base := d.base, limit := d.limit32, typ := d.typ ||| 1, s := true, dpl := d.dpl, p := true,
    db := d.db, g := d.g, valid := true }

/-- Load a segment register from a checked descriptor: the accessed bit, then the register (20_memory.md R180). -/
def loadSegFrom (r : Sreg) (sel : Word) (d : Desc) : M Unit := do
  setAccessed d
  upd (·.setSeg r (d.toSeg sel))

/-- A null selector in a data segment register (20_memory.md R173). -/
def nullSeg (old : SegReg) (sel : Word) : SegReg := { old with sel := sel, valid := false }

/-- `LoadDataSeg` (20_memory.md R180). -/
def loadDataSeg (r : Sreg) (sel : Word) : M Unit := do
  if isNull sel then upd fun s => s.setSeg r (nullSeg (s.seg r) sel)
  else
    let d ← fetchDescOr sel (raiseGP sel)
    let cpl ← look (·.cpl)
    need d.s (raiseGP sel)
    need d.readable (raiseGP sel)
    need (d.isCode && d.conforming || decide (cpl.toNat ≤ d.dpl.toNat ∧ (rpl sel).toNat ≤ d.dpl.toNat))
      (raiseGP sel)
    need d.p (raiseNP sel)
    loadSegFrom r sel d

/-- `LoadSS` (20_memory.md R181). -/
def loadSS (sel : Word) : M Unit := do
  need (!isNull sel) raiseGP0
  let d ← fetchDescOr sel (raiseGP sel)
  let cpl ← look (·.cpl)
  need (rpl sel == cpl) (raiseGP sel)
  need d.writableData (raiseGP sel)
  need (d.dpl == cpl) (raiseGP sel)
  need d.p (raiseSS sel)
  loadSegFrom .ss sel d

/-- A segment register loaded in real-address mode: selector and base only (10_state.md R74). -/
def SegReg.realLoad (old : SegReg) (sel : Word) : SegReg := { old with sel := sel, base := sel.setWidth 32 <<< 4 }

/-- `LoadSeg` (40_data_movement.md R400, 20_memory.md R183). -/
def loadSeg (r : Sreg) (sel : Word) : M Unit := do
  if ← look (·.pe) then
    match r with
    | .ss => loadSS sel
    | .es | .cs | .ds | .fs | .gs => loadDataSeg r sel
  else upd fun s => s.setSeg r ((s.seg r).realLoad sel)

/-! Accesses through a segment (20_memory.md R200). -/

/-- The `n` bytes at `off` lie inside the segment's limit, expand-down segments included (20_memory.md R200, R202). -/
def SegReg.inLimit (g : SegReg) (off : Dword) (n : Nat) : Bool :=
  if !g.typ.getLsbD 3 && g.typ.getLsbD 2 then
    decide (g.limit.toNat < off.toNat ∧ off.toNat + n - 1 ≤ if g.db then 0xFFFFFFFF else 0xFFFF)
  else decide (off.toNat + n - 1 ≤ g.limit.toNat)

/-- The access kind is allowed by the segment's type (20_memory.md R200). In real-address mode CS is readable
and writable whatever its type (92_eei_decisions.md D28). -/
def SegReg.allows (g : SegReg) (write : Bool) : Bool :=
  if write then !g.typ.getLsbD 3 && g.typ.getLsbD 1 else !(g.typ.getLsbD 3 && !g.typ.getLsbD 1)

/-- A limit violation: #SS(0) through SS, #GP(0) through the others (20_memory.md R200). -/
def raiseLimit {α : Type} (r : Sreg) : M α :=
  match r with
  | .ss => raiseSS0
  | .es | .cs | .ds | .fs | .gs => raiseGP0

/-- `SegCheck` (20_memory.md R200). -/
def segCheck (r : Sreg) (off : Dword) (n : Nat) (write : Bool) : M Unit := do
  let g ← look (·.seg r)
  let pe ← look (·.pe)
  need g.valid raiseGP0
  need (g.allows write || (r == .cs && !pe)) raiseGP0
  need (g.inLimit off n) (raiseLimit r)

/-- The physical addresses of an operand of `n` bytes at `off` in segment `r`, all checks made (20_memory.md R200,
R234). -/
def memPlan (r : Sreg) (off : Dword) (n : Nat) (write : Bool) : M (List Dword) := do
  segCheck r off n write
  let base ← look fun s => (s.seg r).base
  linPlan (base + off) n write (← isUser)

/-- `MemRead` as bytes (20_memory.md R200). -/
def memBytes (r : Sreg) (off : Dword) (n : Nat) : M (List Byte) := do
  readPhys (← memPlan r off n false)

/-- `MemRead` of a value of `8 * n` bits, zero-extended to `w` (20_memory.md R200). -/
def memRead (r : Sreg) (off : Dword) (n : Nat) (w : Nat) : M (BitVec w) := do
  pure (leVal w (← memBytes r off n))

/-- `MemWrite` of the `n` low bytes of a value (20_memory.md R200). -/
def memWrite (r : Sreg) (off : Dword) (n : Nat) {w : Nat} (v : BitVec w) : M Unit := do
  writePhys (← memPlan r off n true) (leBytes n v)

/-! The stack (20_memory.md R176, 40_data_movement.md R401, R402). -/

/-- The stack pointer is ESP, not SP (20_memory.md R176). -/
def State.stack32 (s : State) : Bool := s.segs.ss.db

/-- A stack offset: 32 bits, or 16 bits zero-extended (20_memory.md R176). -/
def stackOff (wide : Bool) (v : Dword) : Dword := if wide then v else v &&& 0xFFFF

/-- The stack pointer as an offset in SS. -/
def State.sp (s : State) : Dword := stackOff s.stack32 (s.gpr .esp)

/-- Set ESP, or SP leaving the upper half (20_memory.md R176). -/
def State.setSp (s : State) (v : Dword) : State :=
  if s.stack32 then s.setGpr .esp v else s.setGprLow .esp (v.setWidth 16)

/-- `Push` (40_data_movement.md R401) of the `n` low bytes of a value. -/
def push {w : Nat} (n : Nat) (v : BitVec w) : M Unit := do
  let wide ← look (·.stack32)
  let new := stackOff wide ((← look (·.gpr .esp)) - BitVec.ofNat 32 n)
  memWrite .ss new n v
  upd (·.setSp new)

/-- The stack offsets of the next `count` pushes of `n` bytes (40_data_movement.md R401). -/
def State.pushOffs (s : State) (n count : Nat) : List Dword :=
  (List.range count).map fun k => stackOff s.stack32 (s.gpr .esp - BitVec.ofNat 32 (n * (k + 1)))

/-- Several pushes of `n` bytes each, all checked before the first is written (40_data_movement.md R401,
92_eei_decisions.md D18). -/
def pushAll (n : Nat) (vs : List Dword) : M Unit := do
  let plans ← (← look (·.pushOffs n vs.length)).mapM fun off => memPlan .ss off n true
  (plans.zip vs).forM fun c => writePhys c.1 (leBytes n c.2)
  upd fun s => s.setSp (s.gpr .esp - BitVec.ofNat 32 (n * vs.length))

/-- `Pop` (40_data_movement.md R402) of `n` bytes as a value of `w` bits. -/
def pop (n w : Nat) : M (BitVec w) := do
  let v ← memRead .ss (← look (·.sp)) n w
  upd fun s => s.setSp (s.gpr .esp + BitVec.ofNat 32 n)
  pure v

/-- The stack offset `k` bytes above the stack pointer, modulo 2^16 on a 16-bit stack (20_memory.md R176). -/
def State.slotOff (s : State) (k : Nat) : Dword := stackOff s.stack32 (s.gpr .esp + BitVec.ofNat 32 k)

/-- The `n` bytes at the stack offset `k` bytes above the stack pointer. -/
def readStack (k n w : Nat) : M (BitVec w) := do memRead .ss (← look (·.slotOff k)) n w

/-- Slot `i` of a frame of `n`-byte slots at the top of the stack (40_data_movement.md
R411, 43_control_transfer.md R592). -/
def stackSlot (n w i : Nat) : M (BitVec w) := readStack (n * i) n w

/-- `count` slots of `n` bytes, the first `k` bytes above the stack pointer, lie inside the stack segment
(43_control_transfer.md R595, R609, R610); on a 32-bit stack a slot past 2^32 does not (92_eei_decisions.md D6), on a
16-bit one offsets are modulo 2^16 (20_memory.md R176). -/
def State.holdsSlots (s : State) (k n count : Nat) : Bool :=
  (List.range count).all fun i =>
    (!s.stack32 || decide (s.sp.toNat + k + n * (i + 1) ≤ 2 ^ 32)) && s.segs.ss.inLimit (s.slotOff (k + n * i)) n

/-- Add to the stack pointer without any check (43_control_transfer.md R570). -/
def State.releaseStack (s : State) (n : Nat) : State := s.setSp (s.gpr .esp + BitVec.ofNat 32 n)

/-- Room for `count` pushes of `n` bytes below the offset `sp` of the segment `g` (43_control_transfer.md R590,
60_exceptions.md R940). -/
def SegReg.room (g : SegReg) (sp : Dword) (n count : Nat) : Bool :=
  (List.range count).all fun k => g.inLimit (stackOff g.db (sp - BitVec.ofNat 32 (n * (k + 1)))) n

end Sys2Proof.Machine
end

