-- ==== Sys2Proof/Machine/Flags.lean ====
section
/-! DEFINITION. EFLAGS (10_state.md R55 to R65) and every result and flag computation of 41_arithmetic.md and
42_logic_shift_bit.md, as functions of the operands, the old flags, and, where the spec leaves flags undefined, a
free value `x` (00_scope.md R23): an undefined flag takes the bit of `x` at its own position. -/

namespace Sys2Proof.Machine

/-! The bits of EFLAGS (10_state.md R55). -/

/-- CF. -/
def State.cf (s : State) : Bool := s.eflags.getLsbD 0
/-- PF. -/
def State.pf (s : State) : Bool := s.eflags.getLsbD 2
/-- AF. -/
def State.af (s : State) : Bool := s.eflags.getLsbD 4
/-- ZF. -/
def State.zf (s : State) : Bool := s.eflags.getLsbD 6
/-- SF. -/
def State.sf (s : State) : Bool := s.eflags.getLsbD 7
/-- TF (10_state.md R58). -/
def State.tf (s : State) : Bool := s.eflags.getLsbD 8
/-- IF (10_state.md R59). -/
def State.if' (s : State) : Bool := s.eflags.getLsbD 9
/-- DF (10_state.md R57). -/
def State.df (s : State) : Bool := s.eflags.getLsbD 10
/-- OF. -/
def State.of (s : State) : Bool := s.eflags.getLsbD 11
/-- IOPL (10_state.md R60). -/
def State.iopl (s : State) : BitVec 2 := s.eflags.extractLsb' 12 2
/-- NT (10_state.md R61). -/
def State.nt (s : State) : Bool := s.eflags.getLsbD 14
/-- RF (10_state.md R62). -/
def State.rf (s : State) : Bool := s.eflags.getLsbD 16

/-- Make one bit of EFLAGS `b`. -/
def State.putFlag (s : State) (i : Nat) (b : Bool) : State := { s with eflags := putBit s.eflags i b }

/-- The reserved bits of EFLAGS at their fixed values: bit 1 is 1, bits 3, 5, 15 and 31:18 are 0 (10_state.md R55,
92_eei_decisions.md D8). -/
def fixFlags (v : Dword) : Dword := (v &&& 0x37FD5) ||| 2

/-- The six status flags (10_state.md R56). -/
structure Flags where
  cf : Bool
  pf : Bool
  af : Bool
  zf : Bool
  sf : Bool
  of : Bool
  deriving DecidableEq, Repr

/-- The status flags of the state. -/
def State.flags (s : State) : Flags := { cf := s.cf, pf := s.pf, af := s.af, zf := s.zf, sf := s.sf, of := s.of }

/-- Put the six status flags into an EFLAGS value; the other bits stay. -/
def Flags.into (f : Flags) (v : Dword) : Dword :=
  putBit (putBit (putBit (putBit (putBit (putBit v 0 f.cf) 2 f.pf) 4 f.af) 6 f.zf) 7 f.sf) 11 f.of

/-- Write the six status flags. -/
def State.setFlags (s : State) (f : Flags) : State := { s with eflags := f.into s.eflags }

/-- Six undefined flags: the bits of a free value at the flags' positions (92_eei_decisions.md D7). -/
def Flags.free (x : Dword) : Flags :=
  { cf := x.getLsbD 0, pf := x.getLsbD 2, af := x.getLsbD 4, zf := x.getLsbD 6, sf := x.getLsbD 7, of := x.getLsbD 11 }

/-- `SZP` (41_arithmetic.md R450). -/
def Flags.szp {n : Nat} (f : Flags) (r : BitVec n) : Flags := { f with sf := r.msb, zf := r == 0, pf := parity r }

/-! Addition and subtraction (41_arithmetic.md R450 to R458). -/

/-- `AddFlags` (41_arithmetic.md R450): the sum and its flags. -/
def addFlags {n : Nat} (a b : BitVec n) (c : Bool) : BitVec n × Flags :=
  let r := a + b + bitVal c
  let f : Flags :=
    { cf := decide (2 ^ n ≤ a.toNat + b.toNat + c.toNat)
      af := (a ^^^ b ^^^ r).getLsbD 4
      of := a.msb == b.msb && r.msb != a.msb
      pf := false, zf := false, sf := false }
  (r, f.szp r)

/-- `SubFlags` (41_arithmetic.md R450): the difference and its flags. -/
def subFlags {n : Nat} (a b : BitVec n) (c : Bool) : BitVec n × Flags :=
  let r := a - b - bitVal c
  let f : Flags :=
    { cf := decide (a.toNat < b.toNat + c.toNat)
      af := (a ^^^ b ^^^ r).getLsbD 4
      of := a.msb != b.msb && r.msb != a.msb
      pf := false, zf := false, sf := false }
  (r, f.szp r)

/-- INC (41_arithmetic.md R456): CF stays. -/
def incFlags {n : Nat} (a : BitVec n) (old : Flags) : BitVec n × Flags :=
  let r := a + 1#n
  (r, Flags.szp { old with of := decide (r.toNat = 2 ^ (n - 1)), af := decide (r.toNat % 16 = 0) } r)

/-- DEC (41_arithmetic.md R457): CF stays. -/
def decFlags {n : Nat} (a : BitVec n) (old : Flags) : BitVec n × Flags :=
  let r := a - 1#n
  (r, Flags.szp { old with of := decide (a.toNat = 2 ^ (n - 1)), af := decide (r.toNat % 16 = 15) } r)

/-! Boolean results (42_logic_shift_bit.md R500 to R505). -/

/-- `LogicFlags` (42_logic_shift_bit.md R500). -/
def logicFlags {n : Nat} (r : BitVec n) (x : Dword) : Flags :=
  Flags.szp { Flags.free x with cf := false, of := false } r

/-! Multiplication and division (41_arithmetic.md R459 to R463). -/

/-- CF and OF both `b`, the other four undefined (41_arithmetic.md R459 to R461). -/
def mulFlags (b : Bool) (x : Dword) : Flags := { Flags.free x with cf := b, of := b }

/-- MUL (41_arithmetic.md R459): the double-width product, and whether its upper half is not zero. -/
def mulU {n : Nat} (a b : BitVec n) : BitVec (n + n) × Bool :=
  let p := BitVec.ofNat (n + n) (a.toNat * b.toNat)
  (p, p.extractLsb' n n != 0)

/-- IMUL, one operand (41_arithmetic.md R460): the product, and whether its low half does not hold it. -/
def mulS {n : Nat} (a b : BitVec n) : BitVec (n + n) × Bool :=
  let p := BitVec.ofInt (n + n) (a.toInt * b.toInt)
  (p, p != (p.setWidth n).signExtend (n + n))

/-- IMUL, two or three operands (41_arithmetic.md R461): the low half, and whether the product does not fit. -/
def mulTrunc {n : Nat} (a b : BitVec n) : BitVec n × Bool :=
  let r := BitVec.ofInt n (a.toInt * b.toInt)
  (r, decide (r.toInt ≠ a.toInt * b.toInt))

/-- DIV (41_arithmetic.md R462): quotient and remainder, or none for #DE. -/
def divU {n : Nat} (num : BitVec (n + n)) (d : BitVec n) : Option (BitVec n × BitVec n) :=
  if d.toNat = 0 ∨ 2 ^ n ≤ num.toNat / d.toNat then none
  else some (BitVec.ofNat n (num.toNat / d.toNat), BitVec.ofNat n (num.toNat % d.toNat))

/-- IDIV (41_arithmetic.md R463): quotient truncated toward zero and remainder, or none for #DE. -/
def divS {n : Nat} (num : BitVec (n + n)) (d : BitVec n) : Option (BitVec n × BitVec n) :=
  let q := num.toInt.tdiv d.toInt
  if d.toInt = 0 ∨ (2 : Int) ^ (n - 1) ≤ q ∨ q < -((2 : Int) ^ (n - 1)) then none
  else some (BitVec.ofInt n q, BitVec.ofInt n (num.toInt.tmod d.toInt))

/-! Decimal adjustment (41_arithmetic.md R464 to R469), over AL or AX. -/

/-- DAA (41_arithmetic.md R464). -/
def daaAlu (al : Byte) (old : Flags) (x : Dword) : Byte × Flags :=
  let lowAdj := decide (9 < al.toNat % 16) || old.af
  let al1 := if lowAdj then al + 6 else al
  let highAdj := decide (0x99 < al.toNat) || old.cf
  let al2 := if highAdj then al1 + 0x60 else al1
  (al2, Flags.szp { Flags.free x with af := lowAdj, cf := highAdj } al2)

/-- DAS (41_arithmetic.md R465). -/
def dasAlu (al : Byte) (old : Flags) (x : Dword) : Byte × Flags :=
  let lowAdj := decide (9 < al.toNat % 16) || old.af
  let cf1 := lowAdj && (old.cf || decide (al.toNat < 6))
  let al1 := if lowAdj then al - 6 else al
  let highAdj := decide (0x99 < al.toNat) || old.cf
  let al2 := if highAdj then al1 - 0x60 else al1
  (al2, Flags.szp { Flags.free x with af := lowAdj, cf := cf1 || highAdj } al2)

/-- AAA (41_arithmetic.md R466): AL, AH and the flags. -/
def aaaAlu (al ah : Byte) (old : Flags) (x : Dword) : Byte × Byte × Flags :=
  let adj := decide (9 < al.toNat % 16) || old.af
  (if adj then (al + 6) &&& 0x0F else al &&& 0x0F, if adj then ah + 1 else ah,
    { Flags.free x with af := adj, cf := adj })

/-- AAS (41_arithmetic.md R467): AL, AH and the flags. -/
def aasAlu (al ah : Byte) (old : Flags) (x : Dword) : Byte × Byte × Flags :=
  let adj := decide (9 < al.toNat % 16) || old.af
  (if adj then (al - 6) &&& 0x0F else al &&& 0x0F, if adj then ah - 1 else ah,
    { Flags.free x with af := adj, cf := adj })

/-- AAM (41_arithmetic.md R468) for a divisor that is not 0: AL, AH and the flags. -/
def aamAlu (al ib : Byte) (x : Dword) : Byte × Byte × Flags :=
  (al % ib, al / ib, Flags.szp (Flags.free x) (al % ib))

/-- AAD (41_arithmetic.md R469): AL and the flags; AH becomes 0. -/
def aadAlu (al ah ib : Byte) (x : Dword) : Byte × Flags :=
  (ah * ib + al, Flags.szp (Flags.free x) (ah * ib + al))

/-! Shifts and rotates for a masked count `c` that is not 0 (42_logic_shift_bit.md R506 to R515). -/

/-- The masked count (42_logic_shift_bit.md R506). -/
def maskCount (count : Byte) : Nat := count.toNat % 32

/-- SHL (42_logic_shift_bit.md R507). -/
def shlAlu {n : Nat} (a : BitVec n) (c : Nat) (x : Dword) : BitVec n × Flags :=
  let r := a <<< c
  let u := Flags.free x
  let cf := if c ≤ n then a.getLsbD (n - c) else u.cf
  (r, Flags.szp { u with cf := cf, of := if c = 1 then r.msb != cf else u.of } r)

/-- SHR (42_logic_shift_bit.md R508). -/
def shrAlu {n : Nat} (a : BitVec n) (c : Nat) (x : Dword) : BitVec n × Flags :=
  let r := a >>> c
  let u := Flags.free x
  (r, Flags.szp { u with cf := if c ≤ n then a.getLsbD (c - 1) else u.cf, of := if c = 1 then a.msb else u.of } r)

/-- SAR (42_logic_shift_bit.md R509). -/
def sarAlu {n : Nat} (a : BitVec n) (c : Nat) (x : Dword) : BitVec n × Flags :=
  let r := a.sshiftRight c
  let u := Flags.free x
  (r, Flags.szp { u with cf := if c ≤ n then a.getLsbD (c - 1) else a.msb, of := if c = 1 then false else u.of } r)

/-- ROL (42_logic_shift_bit.md R510). -/
def rolAlu {n : Nat} (a : BitVec n) (c : Nat) (old : Flags) (x : Dword) : BitVec n × Flags :=
  let r := a.rotateLeft c
  (r, { old with cf := r.getLsbD 0, of := if c = 1 then r.msb != r.getLsbD 0 else (Flags.free x).of })

/-- ROR (42_logic_shift_bit.md R511). -/
def rorAlu {n : Nat} (a : BitVec n) (c : Nat) (old : Flags) (x : Dword) : BitVec n × Flags :=
  let r := a.rotateRight c
  (r, { old with cf := r.msb, of := if c = 1 then r.msb != r.getLsbD (n - 2) else (Flags.free x).of })

/-- RCL (42_logic_shift_bit.md R512): the value CF, operand rotates as one of n + 1 bits. -/
def rclAlu {n : Nat} (a : BitVec n) (c : Nat) (old : Flags) (x : Dword) : BitVec n × Flags :=
  let y := (BitVec.ofBool old.cf ++ a).rotateLeft c
  let r := y.setWidth n
  (r, { old with cf := y.msb, of := if c = 1 then r.msb != y.msb else (Flags.free x).of })

/-- RCR (42_logic_shift_bit.md R513). -/
def rcrAlu {n : Nat} (a : BitVec n) (c : Nat) (old : Flags) (x : Dword) : BitVec n × Flags :=
  let y := (BitVec.ofBool old.cf ++ a).rotateRight c
  let r := y.setWidth n
  (r, { old with cf := y.msb, of := if c = 1 then r.msb != r.getLsbD (n - 2) else (Flags.free x).of })

/-- SHLD (42_logic_shift_bit.md R514); a count above the width leaves everything undefined. -/
def shldAlu {n : Nat} (a b : BitVec n) (c : Nat) (x : Dword) (y : BitVec n) : BitVec n × Flags :=
  let u := Flags.free x
  if n < c then (y, u)
  else
    let r := (a <<< c) ||| (b >>> (n - c))
    (r, Flags.szp { u with cf := a.getLsbD (n - c), of := if c = 1 then r.msb != a.msb else u.of } r)

/-- SHRD (42_logic_shift_bit.md R515); a count above the width leaves everything undefined. -/
def shrdAlu {n : Nat} (a b : BitVec n) (c : Nat) (x : Dword) (y : BitVec n) : BitVec n × Flags :=
  let u := Flags.free x
  if n < c then (y, u)
  else
    let r := (a >>> c) ||| (b <<< (n - c))
    (r, Flags.szp { u with cf := a.getLsbD (c - 1), of := if c = 1 then r.msb != a.msb else u.of } r)

/-! Bits (42_logic_shift_bit.md R516 to R522). -/

/-- CF set, the other five undefined (42_logic_shift_bit.md R517). -/
def bitFlags (cf : Bool) (x : Dword) : Flags := { Flags.free x with cf := cf }

/-- ZF set, the other five undefined (42_logic_shift_bit.md R521). -/
def scanFlags (zf : Bool) (x : Dword) : Flags := { Flags.free x with zf := zf }

/-- The least set bit, if there is one (42_logic_shift_bit.md R521). -/
def lowestSet {n : Nat} (a : BitVec n) : Option Nat := (List.range n).find? fun i => a.getLsbD i

/-- The greatest set bit, if there is one (42_logic_shift_bit.md R522). -/
def highestSet {n : Nat} (a : BitVec n) : Option Nat := (List.range n).reverse.find? fun i => a.getLsbD i

/-! Conditions (42_logic_shift_bit.md R523). -/

/-- `Cond(cc)` (42_logic_shift_bit.md R523). -/
def State.cond (s : State) : Cond → Bool
  | .o => s.of
  | .no => !s.of
  | .b => s.cf
  | .ae => !s.cf
  | .e => s.zf
  | .ne => !s.zf
  | .be => s.cf || s.zf
  | .a => !s.cf && !s.zf
  | .s => s.sf
  | .ns => !s.sf
  | .p => s.pf
  | .np => !s.pf
  | .l => s.sf != s.of
  | .ge => s.sf == s.of
  | .le => s.zf || s.sf != s.of
  | .g => !s.zf && s.sf == s.of

/-! Loading EFLAGS from an image. -/

/-- `WriteFlags` (43_control_transfer.md R612): EFLAGS after IRET loads the image `fl`, of 32 bits if `wide`, at
privilege `lvl`, or in real-address mode (`none`). VM is not loaded. -/
def writeFlags (old fl : Dword) (wide : Bool) (lvl : Option (BitVec 2)) : Dword :=
  let keepIf := match lvl with
    | none => false
    | some l => decide ((old.extractLsb' 12 2).toNat < l.toNat)
  let keepIopl := match lvl with
    | none => false
    | some l => l != 0
  let v := putField old 0 (fl.extractLsb' 0 9)
  let v := if keepIf then v else putBit v 9 (fl.getLsbD 9)
  let v := putField v 10 (fl.extractLsb' 10 2)
  let v := if keepIopl then v else putField v 12 (fl.extractLsb' 12 2)
  let v := putBit v 14 (fl.getLsbD 14)
  let v := if wide then putBit v 16 (fl.getLsbD 16) else v
  fixFlags v

end Sys2Proof.Machine
end

