-- ==== Sys2Proof/Machine/Operands.lean ====
section
/-! DEFINITION. Operand and address size (30_encoding.md R310, R311), effective addresses (R321 to R331), and where
an operand is: a register or the bytes of a memory operand (40_data_movement.md R400). -/

namespace Sys2Proof.Machine

/-- The operand size is 32 bits (30_encoding.md R310). -/
def State.o32 (s : State) : Bool := s.segs.cs.db != s.ctx.op66

/-- The address size is 32 bits (30_encoding.md R311). -/
def State.a32 (s : State) : Bool := s.segs.cs.db != s.ctx.ad67

/-- The operand size in bits. -/
def State.osz (s : State) : Nat := if s.o32 then 32 else 16

/-- The operand size in bytes. -/
def State.oszBytes (s : State) : Nat := if s.o32 then 4 else 2

/-- Run a meaning at the operand size in force. -/
def withOsz (f : (w : Nat) → M Unit) : M Unit := do
  if ← look (·.o32) then f 32 else f 16

/-! Effective addresses. -/

/-- The value of a 16-bit displacement (30_encoding.md R323). -/
def disp16Val : Disp16 → Word
  | .none => 0
  | .d8 b => b.signExtend 16
  | .d16 w => w

/-- The value of a 32-bit displacement (30_encoding.md R321). -/
def disp32Val : Disp32 → Dword
  | .none => 0
  | .d8 b => b.signExtend 32
  | .d32 d => d

/-- The sum of the registers of a 16-bit base (30_encoding.md R323). -/
def State.base16 (s : State) : Base16 → Word
  | .bxsi => s.gprLow 16 .ebx + s.gprLow 16 .esi
  | .bxdi => s.gprLow 16 .ebx + s.gprLow 16 .edi
  | .bpsi => s.gprLow 16 .ebp + s.gprLow 16 .esi
  | .bpdi => s.gprLow 16 .ebp + s.gprLow 16 .edi
  | .si => s.gprLow 16 .esi
  | .di => s.gprLow 16 .edi
  | .bp => s.gprLow 16 .ebp
  | .bx => s.gprLow 16 .ebx

/-- The scaled index of a SIB byte; number 4 is no index (30_encoding.md R322). -/
def State.index (s : State) (ss : BitVec 2) (r : Gpr) : Dword :=
  match r with
  | .esp => 0
  | .eax | .ecx | .edx | .ebx | .ebp | .esi | .edi => s.gpr r <<< ss.toNat

/-- The offset of a memory operand (30_encoding.md R330, R331). -/
def State.effOff (s : State) : Mem → Dword
  | .m16 (.direct d) => d.setWidth 32
  | .m16 (.based b d) => (s.base16 b + disp16Val d).setWidth 32
  | .m32 (.direct d) => d
  | .m32 (.based r d) => s.gpr r + disp32Val d
  | .m32 (.sib ss x r d) => s.gpr r + s.index ss x + disp32Val d
  | .m32 (.sibNoBase ss x d) => s.index ss x + d

/-- SS for a base of EBP or ESP, DS otherwise (30_encoding.md R322, R325). -/
def gprSeg : Gpr → Sreg
  | .ebp | .esp => .ss
  | .eax | .ecx | .edx | .ebx | .esi | .edi => .ds

/-- SS for a base with BP, DS otherwise (30_encoding.md R323, R325). -/
def base16Seg : Base16 → Sreg
  | .bpsi | .bpdi | .bp => .ss
  | .bxsi | .bxdi | .si | .di | .bx => .ds

/-- The default segment of a memory operand (30_encoding.md R325). -/
def defaultSeg : Mem → Sreg
  | .m16 (.direct _) => .ds
  | .m16 (.based b _) => base16Seg b
  | .m32 (.direct _) => .ds
  | .m32 (.based r _) => gprSeg r
  | .m32 (.sib _ _ r _) => gprSeg r
  | .m32 (.sibNoBase _ _ _) => .ds

/-- The segment of a memory operand: the override, or the default (30_encoding.md R306, R330). -/
def State.effSeg (s : State) (m : Mem) : Sreg := s.ctx.seg.getD (defaultSeg m)

/-- The segment of an operand whose default is DS (30_encoding.md R338, 40_data_movement.md R417). -/
def State.dataSeg (s : State) : Sreg := s.ctx.seg.getD .ds

/-- Read a memory operand of `n` bytes. -/
def readMem (m : Mem) (n w : Nat) : M (BitVec w) := do
  memRead (← look (·.effSeg m)) (← look (·.effOff m)) n w

/-- Write `n` bytes of a memory operand. -/
def writeMem (m : Mem) (n : Nat) {w : Nat} (v : BitVec w) : M Unit := do
  memWrite (← look (·.effSeg m)) (← look (·.effOff m)) n v

/-- The physical addresses of the `n` bytes that lie `k` bytes into a memory operand whose parts are accessed one by one, all
checks made (20_memory.md R200). The operand does not wrap past offset FFFFFFFFH (R207, log 16). -/
def partPlan (m : Mem) (k n : Nat) (write : Bool) : M (List Dword) := do
  let r ← look (·.effSeg m)
  let off ← look (·.effOff m)
  need (decide (off.toNat + k < 2 ^ 32)) (raiseLimit r)
  memPlan r (off + BitVec.ofNat 32 k) n write

/-- Read the `n` bytes that lie `k` bytes into a memory operand: a `MemRead` of its own. -/
def readPart (m : Mem) (k n w : Nat) : M (BitVec w) := do
  pure (leVal w (← readPhys (← partPlan m k n false)))

/-! Where an operand is. -/

/-- A register, or the checked physical addresses of a memory operand. -/
inductive Place where
  | gpr (r : Gpr)
  | byte (r : Reg8)
  | mem (pas : List Dword)
  deriving DecidableEq, Repr

/-- Read an operand of `w` bits (40_data_movement.md R400, `ReadOp`). -/
def Place.read (w : Nat) : Place → M (BitVec w)
  | .gpr r => look (·.gprLow w r)
  | .byte r => look fun s => (s.reg8 r).setWidth w
  | .mem pas => do pure (leVal w (← readPhys pas))

/-- Write an operand of `w` bits (40_data_movement.md R400, `WriteOp`). -/
def Place.write {w : Nat} (v : BitVec w) : Place → M Unit
  | .gpr r => upd (·.setGprLow r v)
  | .byte r => upd (·.setReg8 r (v.setWidth 8))
  | .mem pas => writePhys pas (leBytes pas.length v)

/-- The place of a memory operand of `n` bytes, all checks made; `write` where it will be written. -/
def memPlace (r : Sreg) (off : Dword) (n : Nat) (write : Bool) : M Place := do
  pure (.mem (← memPlan r off n write))

/-- The place of an `Eb` operand. -/
def placeB (e : RM Reg8) (write : Bool) : M Place :=
  match e with
  | .reg r => pure (.byte r)
  | .mem m => do memPlace (← look (·.effSeg m)) (← look (·.effOff m)) 1 write

/-- The place of an `Ev` operand of `w` bits, or of an `Ew` operand with `w = 16`. Where `write` holds, the page is
marked dirty when it is translated, whether or not the operand is written in the end (log 31). -/
def placeV (w : Nat) (e : RM Gpr) (write : Bool) : M Place :=
  match e with
  | .reg r => pure (.gpr r)
  | .mem m => do memPlace (← look (·.effSeg m)) (← look (·.effOff m)) (w / 8) write

/-- Read an `Eb` operand. -/
def readB (e : RM Reg8) : M Byte := do (← placeB e false).read 8

/-- Read an `Ev` operand of `w` bits, or an `Ew` operand with `w = 16`. -/
def readV (w : Nat) (e : RM Gpr) : M (BitVec w) := do (← placeV w e false).read w

/-- The operand is in memory: where LOCK is accepted before a read-modify-write row (30_encoding.md R308). -/
def isMem {R : Type} : RM R → Bool
  | .reg _ => false
  | .mem _ => true

end Sys2Proof.Machine
end

