-- ==== Sys2Proof/Machine/Task.lean ====
section
/-! DEFINITION. The task state segment and the task switch (47_multitasking.md R840 to R887), and the inner stacks
the TSS holds (43_control_transfer.md R590, R591). -/

namespace Sys2Proof.Machine

/-- The offset of the next instruction in the code segment (10_state.md R51), which a task switch saves (47_multitasking.md
R872), CALL and INT push and relative branches count from. It is not cut to 16 bits, even in a 16-bit segment whose limit
exceeds FFFFH, where `advance` would wrap (10_state.md R52): DEDUCED, log 36. -/
def State.nextEip (s : State) : Dword := s.eip + BitVec.ofNat 32 s.ctx.len

/-- The next instruction lies past the last offset that sequential execution may reach (10_state.md R52): FFFFFFFFH in a
32-bit segment, FFFFH in real-address mode (log 11). A CS with D = 1 in real-address mode counts as a 32-bit segment:
DESIGN CHOICE, log 35. -/
def State.runsOver (s : State) : Bool :=
  if s.segs.cs.db then decide (2 ^ 32 ≤ s.eip.toNat + s.ctx.len)
  else !s.pe && decide (0xFFFF < s.eip.toNat + s.ctx.len)

/-- EIP after an instruction that does not transfer (10_state.md R52): kept to 16 bits in a 16-bit segment, but
never wrapped past the segment's limit, so that the next fetch raises the exception; where the limit does not stop it,
`eipOver` does (log 11). -/
def State.advance (s : State) : State :=
  let n := s.nextEip
  { s with
    eip := if s.segs.cs.db || decide (s.segs.cs.limit.toNat < n.toNat) then n else n &&& 0xFFFF
    eipOver := s.runsOver }

/-- Go to an offset of the current code segment; the prefetch queue is discarded, so that the next fetch sees every write
made before (20_memory.md R251). With no fence instruction, the control transfers, which all end here or in
`State.loadTask`, are what orders fetch after writes (20_memory.md R242). -/
def State.goTo (s : State) (off : Dword) : State := { s with eip := off, eipOver := false, prefetch := [] }

/-- Load CS from a checked code-segment descriptor and go to an offset in it (43_control_transfer.md R585). -/
def loadCS (sel : Word) (d : Desc) (off : Dword) : M Unit := do
  loadSegFrom .cs sel d
  upd (·.goTo off)

/-! Inner stacks. -/

/-- `TssStack` (43_control_transfer.md R591): the selector and the pointer of an inner stack. A TR that was never loaded
raises #TS(TR.sel), because its limit is 0: DESIGN CHOICE, log 41. -/
def tssStack (n : BitVec 2) : M (Word × Dword) := do
  let tr ← look (·.tr)
  let off := 8 * n.toNat
  need (decide (off + 11 ≤ tr.limit.toNat)) (raiseTS tr.sel)
  let esp ← linRead (tr.base + BitVec.ofNat 32 (off + 4)) 4 false
  let ss ← linRead (tr.base + BitVec.ofNat 32 (off + 8)) 2 false
  pure (leVal 16 ss, leVal 32 esp)

/-- An inner stack that passed its checks. -/
structure InnerStack where
  sel : Word
  esp : Dword
  desc : Desc
  deriving DecidableEq, Repr

/-- The checks on the stack of the inner level `lvl` that is to take `count` doublewords (43_control_transfer.md
R590, 60_exceptions.md R940). -/
def innerStack (lvl : BitVec 2) (count : Nat) : M InnerStack := do
  let (nss, nesp) ← tssStack lvl
  need (!isNull nss) (raiseTS nss)
  let sd ← fetchDescOr nss (raiseTS nss)
  need (rpl nss == lvl) (raiseTS nss)
  need (sd.dpl == lvl) (raiseTS nss)
  need sd.writableData (raiseTS nss)
  need sd.p (raiseSS nss)
  need ((sd.toSeg nss).room nesp 4 count) (raiseSS nss)
  pure { sel := nss, esp := nesp, desc := sd }

/-- Enter an inner level on its stack (43_control_transfer.md R590, 60_exceptions.md R940). -/
def enterStack (lvl : BitVec 2) (k : InnerStack) : M Unit := do
  upd fun s => { s with cpl := lvl }
  loadSegFrom .ss k.sel k.desc
  upd (·.setSp k.esp)

/-- A selector as a doubleword whose upper half is open (92_eei_decisions.md D7). -/
def anySel (sel : Word) : M Dword := do
  let hi ← anyBits 16
  pure (hi ++ sel)

/-! The task switch. -/

/-- What causes a task switch (47_multitasking.md R865). -/
inductive SwitchKind where
  | jmp
  | call
  | int
  | iret
  deriving DecidableEq, Repr

/-- The old task leaves the chain: JMP and IRET (47_multitasking.md R873). -/
def SwitchKind.leaves : SwitchKind → Bool
  | .jmp | .iret => true
  | .call | .int => false

/-- The doubleword at an offset of a TSS image (47_multitasking.md R841). -/
def tssD (t : List Byte) (off : Nat) : Dword := leVal 32 ((t.drop off).take 4)

/-- The word at an offset of a TSS image (47_multitasking.md R841). -/
def tssW (t : List Byte) (off : Nat) : Word := leVal 16 ((t.drop off).take 2)

/-- The fields of the outgoing state and where they are saved (47_multitasking.md R872). -/
def State.tssFields (s : State) (eip flags : Dword) : List (Nat × List Byte) :=
  [(0x20, leBytes 4 eip), (0x24, leBytes 4 flags), (0x28, leBytes 4 s.gprs.eax), (0x2C, leBytes 4 s.gprs.ecx),
    (0x30, leBytes 4 s.gprs.edx), (0x34, leBytes 4 s.gprs.ebx), (0x38, leBytes 4 s.gprs.esp),
    (0x3C, leBytes 4 s.gprs.ebp), (0x40, leBytes 4 s.gprs.esi), (0x44, leBytes 4 s.gprs.edi),
    (0x48, leBytes 2 s.segs.es.sel), (0x4C, leBytes 2 s.segs.cs.sel), (0x50, leBytes 2 s.segs.ss.sel),
    (0x54, leBytes 2 s.segs.ds.sel), (0x58, leBytes 2 s.segs.fs.sel), (0x5C, leBytes 2 s.segs.gs.sel)]

/-- Change the access byte of a descriptor at the physical addresses `pas` (47_multitasking.md R873). -/
def changeAccess (pas : List Dword) (f : Byte → Byte) : M Unit := do
  let bs ← readPhys pas
  writePhys pas (bs.map f)

/-- A segment register with a new selector and nothing valid behind it (47_multitasking.md R875). -/
def SegReg.unchecked (old : SegReg) (sel : Word) : SegReg := { old with sel := sel, valid := false }

/-- The general registers of a TSS image (47_multitasking.md R841). -/
def tssGprs (t : List Byte) : Gprs :=
  { eax := tssD t 0x28, ecx := tssD t 0x2C, edx := tssD t 0x30, ebx := tssD t 0x34, esp := tssD t 0x38,
    ebp := tssD t 0x3C, esi := tssD t 0x40, edi := tssD t 0x44 }

/-- The segment registers of a TSS image, unchecked (47_multitasking.md R875). -/
def Segs.fromTss (g : Segs) (t : List Byte) : Segs :=
  { es := g.es.unchecked (tssW t 0x48), cs := g.cs.unchecked (tssW t 0x4C), ss := g.ss.unchecked (tssW t 0x50),
    ds := g.ds.unchecked (tssW t 0x54), fs := g.fs.unchecked (tssW t 0x58), gs := g.gs.unchecked (tssW t 0x5C) }

/-- Load CR3 and flush the TLB, if paging is on (47_multitasking.md R875): like MOV to CR3 it orders translation after the
writes to the page tables made before (20_memory.md R242, R262). -/
def State.switchCr3 (s : State) (cr3 : Dword) : State := if s.pg then { s with cr3 := cr3 }.flushTlb else s

/-- EFLAGS loaded from a TSS image (47_multitasking.md R875, R873). -/
def taskFlags (k : SwitchKind) (t : List Byte) : Dword :=
  let v := fixFlags (tssD t 0x24)
  if k.leaves then v else putBit v 14 true

/-- Step F of the task switch: the incoming state (47_multitasking.md R875). The prefetch queue is discarded, as by any
control transfer (20_memory.md R242, R251). -/
def State.loadTask (s : State) (k : SwitchKind) (t : List Byte) : State :=
  let s := s.switchCr3 (tssD t 0x1C)
  { s with
    ldtr := { s.ldtr with sel := tssW t 0x60, valid := false }
    eflags := taskFlags k t
    eip := tssD t 0x20
    eipOver := false
    gprs := tssGprs t
    segs := s.segs.fromTss t
    cpl := rpl (tssW t 0x4C)
    dr7 := s.dr7 &&& 0xFFFFFFAA
    prefetch := []
    ctx := { s.ctx with keepRF := true } }

/-- Step G for the LDT (47_multitasking.md R876). -/
def checkTaskLdt : M Unit := do
  let l ← look (·.ldtr.sel)
  if isNull l then pure ()
  else
    need (!ti l) (raiseTS l)
    let d ← fetchDescOr l (raiseTS l)
    need (!d.s && d.typ == 2 && d.p) (raiseTS l)
    upd fun s => { s with ldtr := { sel := l, base := d.base, limit := d.limit32, valid := true } }

/-- Step G for CS (47_multitasking.md R876). -/
def checkTaskCS : M Unit := do
  let c ← look (·.segs.cs.sel)
  need (!isNull c) (raiseTS c)
  let d ← fetchDescOr c (raiseTS c)
  need d.isCode (raiseTS c)
  need (d.conforming || d.dpl == rpl c) (raiseTS c)
  need (!d.conforming || decide (d.dpl.toNat ≤ (rpl c).toNat)) (raiseTS c)
  need d.p (raiseNP c)
  loadSegFrom .cs c d

/-- Step G for SS (47_multitasking.md R876). -/
def checkTaskSS : M Unit := do
  let x ← look (·.segs.ss.sel)
  let cpl ← look (·.cpl)
  need (!isNull x) (raiseTS x)
  let d ← fetchDescOr x (raiseTS x)
  need (rpl x == cpl) (raiseTS x)
  need d.writableData (raiseTS x)
  need (d.dpl == cpl) (raiseTS x)
  need d.p (raiseSS x)
  loadSegFrom .ss x d

/-- Step G for a data segment register (47_multitasking.md R876). -/
def checkTaskData (r : Sreg) : M Unit := do
  let x ← look fun s => (s.seg r).sel
  let cpl ← look (·.cpl)
  if isNull x then pure ()
  else
    let d ← fetchDescOr x (raiseTS x)
    need d.readable (raiseTS x)
    need (d.isCode && d.conforming || decide (cpl.toNat ≤ d.dpl.toNat ∧ (rpl x).toNat ≤ d.dpl.toNat)) (raiseTS x)
    need d.p (raiseNP x)
    loadSegFrom r x d

/-- An error code as the doubleword pushed, its upper half open (60_exceptions.md R930). -/
def pushErr (err : Option Word) : M Unit :=
  match err with
  | none => pure ()
  | some e => do push 4 (← anySel e)

/-- Steps G, H, the push of an error code (R879), and step I of the task switch, each made permanent as it is
done (47_multitasking.md R876 to R879). The trap of the T bit is one with a single-step trap of the same instruction:
DESIGN CHOICE, log 37. -/
def startTask (t : List Byte) (err : Option Word) : M Unit := do
  checkTaskLdt
  commit
  checkTaskCS
  commit
  checkTaskSS
  commit
  checkTaskData .ds
  commit
  checkTaskData .es
  commit
  checkTaskData .fs
  commit
  checkTaskData .gs
  commit
  need (← look fun s => decide (s.eip.toNat ≤ s.segs.cs.limit.toNat)) raiseGP0
  pushErr err
  if (tssW t 0x64).getLsbD 0 then
    upd fun s => { s with trapPending := true, dr6 := putBit s.dr6 15 true }

/-- The plan of a supervisor write that only some kinds of switch make; no addresses where it is not made. Planning marks
the page dirty (log 38). -/
def planIf (made : Bool) (la : Dword) (n : Nat) : M (List Dword) := if made then linPlan la n true false else pure []

/-- Steps A to E of the task switch (47_multitasking.md R870 to R874): the outgoing task is saved, busy bits, TR, TS and the
back link are set; the answer is the image of the new TSS. All checks and translations come before the first write. The
probe of step B is the translation for writing itself: it marks every page of offsets 00H to 67H of the old TSS, and the
other probed pages, dirty for good, even where a later check faults and nothing is written: DEDUCED, log 38. The
new descriptor is marked busy before the old one is marked free: a task that switches to itself ends free (log 32). Where TR
was never loaded the old TSS is the 104 bytes at linear address 0, and the switch ends in #TS(TR.sel) after the probes,
because the limit of TR is 0 (47_multitasking.md R845): DESIGN CHOICE, log 41. -/
def leaveTask (nsel : Word) (d : Desc) (k : SwitchKind) (eip flags : Dword) : M (List Byte) := do
  need (decide (103 ≤ d.limit32.toNat)) (raiseTS nsel)
  let t ← linRead d.base 104 false
  let tr ← look (·.tr)
  let old ← linPlan tr.base 104 true false
  let newAccess ← planIf (k != .iret) (d.addr + 5) 1
  let gdt ← look (·.gdtr.base)
  let oldAccess ← planIf k.leaves (gdt + (tr.sel &&& 0xFFF8).setWidth 32 + 5) 1
  let backLink ← planIf (!k.leaves) d.base 2
  need (decide (103 ≤ tr.limit.toNat)) (raiseTS tr.sel)
  let flags := if k = .iret then putBit flags 14 false else flags
  (← look (·.tssFields eip flags)).forM fun f => writePhys ((old.drop f.1).take f.2.length) f.2
  changeAccess newAccess (· ||| 2)
  changeAccess oldAccess (· &&& 0xFD)
  upd fun s =>
    { s with tr := { sel := nsel, base := d.base, limit := d.limit32, valid := true }, cr0 := putBit s.cr0 3 true }
  writePhys backLink (leBytes 2 tr.sel)
  pure t

/-- `TaskSwitch` (47_multitasking.md R870): to the TSS that `nsel` and its descriptor `d` name; `eip` and `flags`
are what the outgoing task saves, `err` what the incoming one finds on its stack. -/
def taskSwitch (nsel : Word) (d : Desc) (k : SwitchKind) (eip flags : Dword) (err : Option Word) : M Unit := do
  let t ← leaveTask nsel d k eip flags
  commit
  need (!(taskFlags k t).getLsbD 17) (refuse .virtual8086)
  upd (·.loadTask k t)
  commit
  startTask t err

/-- `GateTarget` (47_multitasking.md R866): the TSS that the selector of a task gate names, and the switch to it. -/
def gateTarget (tsel : Word) (k : SwitchKind) (eip flags : Dword) (err : Option Word) : M Unit := do
  need (!isNull tsel) raiseGP0
  need (!ti tsel) (raiseGP tsel)
  let d ← fetchDescOr tsel (raiseGP tsel)
  need (!(!d.s && (d.typ == 1 || d.typ == 3))) (refuse .descriptor286)
  need (!d.s && (d.typ == 9 || d.typ == 11)) (raiseGP tsel)
  need (d.typ == 9) (raiseGP tsel)
  need d.p (raiseNP tsel)
  taskSwitch tsel d k eip flags err

end Sys2Proof.Machine
end

