-- ==== Sys2Proof/Machine/Ops.lean ====
section
/-! DEFINITION. Taking an exception or an interrupt (60_exceptions.md R940, R960, R970, R972), the return from one
(43_control_transfer.md R608 to R612, 47_multitasking.md R880), and how the meaning of an instruction runs and ends:
completion, or the delivery of the exception it raised. -/

namespace Sys2Proof.Machine

/-! ## Taking an exception -/

/-- What kind of event is delivered (60_exceptions.md R940). -/
inductive EventKind where
  /-- INT n, INT 3, INTO. -/
  | software
  /-- Every exception the processor detects. -/
  | exception
  /-- NMI and INTR. -/
  | external
  deriving DecidableEq, Repr

/-- EXT for the errors of the delivery (60_exceptions.md R940). -/
def EventKind.ext : EventKind → Bool
  | .software => false
  | .exception | .external => true

/-- The error code that names an IDT entry, without EXT (60_exceptions.md R930). -/
def idtCode (v : Byte) : Word := (v.setWidth 16 <<< 3) ||| 2

/-- The EFLAGS image that is saved: RF is 1 for a fault that is no debug fault (60_exceptions.md R903). -/
def flagsImage (flags : Dword) (v : Byte) (kind : EventKind) : Dword :=
  if kind = .exception ∧ v ≠ 1 ∧ v ≠ 8 then putBit flags 16 true else flags

/-- `IdtGate` (60_exceptions.md R935). -/
def idtGate (v : Byte) : M Desc := do
  let idtr ← look (·.idtr)
  need (decide (8 * v.toNat + 7 ≤ idtr.limit.toNat)) (raiseCode 13 (idtCode v))
  let addr := idtr.base + BitVec.ofNat 32 (8 * v.toNat)
  let bs ← linRead addr 8 false
  pure { raw := leVal 64 bs, addr := addr }

/-- EFLAGS after entry through a gate (60_exceptions.md R947). -/
def entryFlags (flags : Dword) (clearIf : Bool) : Dword :=
  let v := putBit (putBit (putBit flags 8 false) 14 false) 16 false
  if clearIf then putBit v 9 false else v

/-- The frame of a handler in the order it is pushed: flags, CS, EIP, and the error code if there is one
(60_exceptions.md R941). The upper halves of the CS and error-code slots are open (R930, 92_eei_decisions.md D7). -/
def handlerFrame (flags : Dword) (cs : Word) (eip : Dword) (err : Option Word) : M (List Dword) := do
  let c ← anySel cs
  match err with
  | none => pure [flags, c, eip]
  | some e => do pure [flags, c, eip, ← anySel e]

/-- How many doublewords of a frame an error code takes. -/
def errCount (err : Option Word) : Nat := if err.isSome then 1 else 0

/-- Entry at an inner level, on the stack the TSS gives (60_exceptions.md R940). -/
def enterInner (g d : Desc) (flags eip : Dword) (err : Option Word) : M Unit := do
  let k ← innerStack d.dpl (5 + errCount err)
  need (decide (g.gateOff.toNat ≤ d.limit32.toNat)) raiseGP0
  let ss ← look (·.segs.ss.sel)
  let esp ← look (·.gpr .esp)
  let cs ← look (·.segs.cs.sel)
  let ssSlot ← anySel ss
  let frame ← handlerFrame flags cs eip err
  enterStack d.dpl k
  pushAll 4 (ssSlot :: esp :: frame)
  loadCS (withRpl g.gateSel d.dpl) d g.gateOff

/-- Entry at the same level, on the current stack (60_exceptions.md R940). -/
def enterSame (g d : Desc) (flags eip : Dword) (err : Option Word) : M Unit := do
  need (← look fun s => s.segs.ss.room s.sp 4 (3 + errCount err)) raiseSS0
  need (decide (g.gateOff.toNat ≤ d.limit32.toNat)) raiseGP0
  pushAll 4 (← handlerFrame flags (← look (·.segs.cs.sel)) eip err)
  loadCS (withRpl g.gateSel (← look (·.cpl))) d g.gateOff

/-- Entry through an interrupt or trap gate (60_exceptions.md R940). -/
def enterGate (g : Desc) (flags eip : Dword) (err : Option Word) : M Unit := do
  let tsel := g.gateSel
  need (!isNull tsel) raiseGP0
  let d ← fetchDescOr tsel (raiseGP tsel)
  let cpl ← look (·.cpl)
  need d.isCode (raiseGP tsel)
  need (decide (d.dpl.toNat ≤ cpl.toNat)) (raiseGP tsel)
  need d.p (raiseNP tsel)
  if !d.conforming && decide (d.dpl.toNat < cpl.toNat) then enterInner g d flags eip err
  else enterSame g d flags eip err
  upd fun s => { s with eflags := entryFlags s.eflags (g.typ == 14) }

/-- `Deliver` in protected mode (60_exceptions.md R940). -/
def deliverProt (v : Byte) (kind : EventKind) (err : Option Word) (eip : Dword) : M Unit := do
  let g ← idtGate v
  need (!g.s && (g.typ == 5 || g.typ == 6 || g.typ == 7 || g.typ == 14 || g.typ == 15)) (raiseCode 13 (idtCode v))
  need (!(g.typ == 6 || g.typ == 7)) (refuse .descriptor286)
  let cpl ← look (·.cpl)
  need (kind != .software || decide (cpl.toNat ≤ g.dpl.toNat)) (raiseCode 13 (idtCode v))
  need g.p (raiseCode 11 (idtCode v))
  let flags ← look fun s => flagsImage s.eflags v kind
  if g.typ = 5 then gateTarget g.gateSel .int eip flags err
  else enterGate g flags eip err

/-- `DeliverReal` (60_exceptions.md R960). -/
def deliverReal (v : Byte) (eip : Dword) : M Unit := do
  let idtr ← look (·.idtr)
  need (decide (4 * v.toNat + 3 ≤ idtr.limit.toNat)) (raisePlain 8)
  let addr := idtr.base + BitVec.ofNat 32 (4 * v.toNat)
  let ip ← linRead addr 2 false
  let cs ← linRead (addr + 2) 2 false
  need (← look fun s => s.segs.ss.room s.sp 2 3) raiseSS0
  let flags ← look (·.eflags)
  let oldCs ← look (·.segs.cs.sel)
  pushAll 2 [flags, oldCs.setWidth 32, eip]
  upd fun s => (s.putFlag 9 false).putFlag 8 false
  upd fun s => (s.setSeg .cs (s.segs.cs.realLoad (leVal 16 cs))).goTo (leVal 32 ip)

/-- `Deliver(v, kind, err, EIP_saved)` (60_exceptions.md R940, R960): the one operation that takes an exception or an
interrupt. No error code is pushed in real-address mode (R931). -/
def deliver (v : Byte) (kind : EventKind) (err : Option Word) (eip : Dword) : M Unit := do
  if ← look (·.pe) then deliverProt v kind err eip else deliverReal v eip

/-! ## Faults during delivery -/

/-- What is done when an event is taken at a boundary, undone if its delivery is abandoned (60_exceptions.md R915,
R970), unless a task switch for it was committed before (log 33). -/
inductive Taking where
  /-- An exception of an instruction. -/
  | fault
  /-- The pending debug trap. -/
  | trap
  /-- The NMI request. -/
  | nmi
  /-- The INTR request. -/
  | intr
  deriving DecidableEq, Repr

/-- An event that is to be delivered. -/
structure Event where
  vec : Byte
  kind : EventKind
  err : Option Word
  taking : Taking
  deriving DecidableEq, Repr

/-- Acknowledge an event (60_exceptions.md R911, R912, R915): the NMI latch is set, the request is gone, a halted
processor runs. A debug trap is given up for good, whatever becomes of its delivery (log 12). -/
def acknowledge (e : Event) : M Unit :=
  match e.taking with
  | .fault => upd fun s => { s with run := .running }
  | .trap => do
    updBoth fun s => { s with trapPending := false }
    upd fun s => { s with run := .running }
  | .nmi => upd fun s => { s with nmi := false, nmiLatch := true, run := .running }
  | .intr => upd fun s => { s with intr := none, run := .running }.event (.intAck e.vec)

/-- The classes of 60_exceptions.md R970. -/
inductive ExcClass where
  | benign
  | contributory
  | pageFault
  deriving DecidableEq, Repr

/-- The class of an exception the processor detects (60_exceptions.md R970). -/
def vecClass (v : Byte) : ExcClass :=
  match v.toNat with
  | 0 | 9 | 10 | 11 | 12 | 13 => .contributory
  | 14 => .pageFault
  | _ => .benign

/-- The class of an event; every interrupt is benign (60_exceptions.md R970). -/
def eventClass (e : Event) : ExcClass := if e.kind = .exception then vecClass e.vec else .benign

/-- Two events that cannot be handled one after the other (60_exceptions.md R970). -/
def doubles (first second : ExcClass) : Bool :=
  match first, second with
  | .contributory, .contributory => true
  | .pageFault, .contributory => true
  | .pageFault, .pageFault => true
  | _, _ => false

/-- The event that follows an exception met while delivering `e`, a task switch made for `e` included (60_exceptions.md
R970); which CS:EIP it saves is said at `deliverChain` (log 40). -/
def nextEvent (e : Event) (x : Exc) : Event :=
  if doubles (eventClass e) (vecClass x.vec) then { vec := 8, kind := .exception, err := some 0, taking := .fault }
  else { vec := x.vec, kind := .exception, err := x.err, taking := .fault }

/-- The processor shuts down (60_exceptions.md R972). -/
def State.shutDown (s : State) : State := { s with run := .shutdown, ctx := .empty }

/-- Deliver an event from the state `s`; an exception met meanwhile is delivered instead, or becomes the double
fault, or shuts the processor down (60_exceptions.md R970, R972). Each is delivered with the CS:EIP and the flags of the
state it is delivered from, which is the state before `e` unless a task switch for `e` was committed. Where it was, and the
exception is met in steps F to H of that switch, the state is the new task's, and so are the CS:EIP and flags saved, by the
double fault too: R970 and 92_eei_decisions.md D17 name those of the first event, 47_multitasking.md R885 those of the new
task; DEDUCED, log 40. `fuel` bounds the chain, which has at most four deliveries. -/
def deliverChain : Nat → Event → State → Outcome
  | 0, _, s => .next s.shutDown
  | fuel + 1, e, s =>
    match (do acknowledge e; deliver e.vec e.kind e.err s.eip : M Unit) { cur := s, base := s, ext := e.kind.ext } with
    | .ok _ t => .next { t.cur with ctx := .empty }
    | .error (.refuse r) _ => .refused r
    | .error (.raise x) t =>
      if e.kind = .exception ∧ e.vec = 8 then .next t.base.shutDown else deliverChain fuel (nextEvent e x) t.base

/-- Deliver an event: `deliverChain` with enough fuel. -/
def takeEvent (e : Event) (s : State) : Outcome := deliverChain 6 e s

/-- Take an exception an instruction raised, from the state the fault leaves (60_exceptions.md R902, R940). -/
def takeException (x : Exc) (s : State) : Outcome :=
  takeEvent { vec := x.vec, kind := .exception, err := x.err, taking := .fault } s

/-! ## The return from an exception -/

/-- `count` slots of `n` bytes, the first `k` bytes above the stack pointer, are inside the stack segment
(43_control_transfer.md R595, R609, R610). -/
def needStack (k n count : Nat) : M Unit := do need (← look (·.holdsSlots k n count)) raiseSS0

/-- The checks on the selector of a return address (43_control_transfer.md R595, R597). -/
def returnCS (rsel : Word) : M Desc := do
  let cpl ← look (·.cpl)
  need (decide (cpl.toNat ≤ (rpl rsel).toNat)) (raiseGP rsel)
  need (!isNull rsel) raiseGP0
  let d ← fetchDescOr rsel (raiseGP rsel)
  need d.isCode (raiseGP rsel)
  need (d.conforming || d.dpl == rpl rsel) (raiseGP rsel)
  need (!d.conforming || decide (d.dpl.toNat ≤ (rpl rsel).toNat)) (raiseGP rsel)
  need d.p (raiseNP rsel)
  pure d

/-- The stack of the outer level, found `up` bytes above the stack pointer in two slots of `n` bytes, and its checks
(43_control_transfer.md R596). -/
def returnSS (up n : Nat) (rsel : Word) : M InnerStack := do
  needStack up n 2
  let nesp ← readStack up n 32
  let nss ← readStack (up + n) 2 16
  need (!isNull nss) raiseGP0
  let sd ← fetchDescOr nss (raiseGP nss)
  need (rpl nss == rpl rsel) (raiseGP nss)
  need sd.writableData (raiseGP nss)
  need (sd.dpl == rpl rsel) (raiseGP nss)
  need sd.p (raiseSS nss)
  pure { sel := nss, esp := nesp, desc := sd }

/-- Load CS:EIP and SS:ESP of the outer level and release `extra` bytes there (43_control_transfer.md R596). -/
def leaveInner (rsel : Word) (d : Desc) (off : Dword) (k : InnerStack) (n extra : Nat) : M Unit := do
  upd fun s => { s with cpl := rpl rsel }
  loadCS rsel d off
  loadSegFrom .ss k.sel k.desc
  if n = 4 then upd (·.setGpr .esp k.esp)
  else
    let hi ← anyBits 16
    upd (·.setGpr .esp (hi ++ (k.esp.setWidth 16 : Word)))
  upd (·.releaseStack extra)

/-- `CleanSeg` (43_control_transfer.md R598). -/
def SegReg.clean (g : SegReg) (cpl : BitVec 2) : SegReg :=
  if g.valid && decide (g.dpl.toNat < cpl.toNat) && !(g.typ.getLsbD 3 && g.typ.getLsbD 2) then
    { g with sel := 0, valid := false }
  else g

/-- `CleanSeg` of DS, ES, FS and GS (43_control_transfer.md R598). -/
def State.cleanSegs (s : State) : State :=
  { s with
    segs :=
      { s.segs with
        ds := s.segs.ds.clean s.cpl
        es := s.segs.es.clean s.cpl
        fs := s.segs.fs.clean s.cpl
        gs := s.segs.gs.clean s.cpl } }

/-- IRET in real-address mode (43_control_transfer.md R609). -/
def iretReal : M Unit := do
  let n ← look (·.oszBytes)
  needStack 0 n 3
  let off ← readStack 0 n 32
  let sel ← readStack n n 32
  let fl ← readStack (2 * n) n 32
  need (← look fun s => decide (off.toNat ≤ s.segs.cs.limit.toNat)) raiseGP0
  upd (·.releaseStack (3 * n))
  upd fun s => (s.setSeg .cs (s.segs.cs.realLoad (sel.setWidth 16))).goTo off
  upd fun s => { s with eflags := writeFlags s.eflags fl (n == 4) none }

/-- IRET in protected mode with NT = 0 (43_control_transfer.md R610, R611). -/
def iretProt : M Unit := do
  let n ← look (·.oszBytes)
  let cpl ← look (·.cpl)
  needStack 0 n 3
  let off ← readStack 0 n 32
  let rsel ← readStack n 2 16
  let fl ← readStack (2 * n) n 32
  need (!(n == 4 && fl.getLsbD 17 && cpl == 0)) (refuse .virtual8086)
  let d ← returnCS rsel
  if (rpl rsel).toNat ≤ cpl.toNat then
    need (decide (off.toNat ≤ d.limit32.toNat)) raiseGP0
    upd (·.releaseStack (3 * n))
    loadCS rsel d off
    upd fun s => { s with eflags := writeFlags s.eflags fl (n == 4) (some cpl) }
  else
    let k ← returnSS (3 * n) n rsel
    need (decide (off.toNat ≤ d.limit32.toNat)) raiseGP0
    leaveInner rsel d off k n 0
    upd fun s => { s with eflags := writeFlags s.eflags fl (n == 4) (some cpl) }
    upd (·.cleanSegs)

/-- IRET with NT = 1: the return to the task that the back link names (47_multitasking.md R880). The back link is read at
TR.base whether TR was ever loaded or not: R845 says only that TR is not usable until LTR or a task switch loads it. Before
that its base is 0 (log 1), so two bytes are read at linear address 0, and a link that passes the checks ends in #TS(TR.sel),
because the limit of TR is 0: DESIGN CHOICE, log 41. -/
def taskReturn : M Unit := do
  let tr ← look (·.tr)
  let bl : Word := leVal 16 (← linRead tr.base 2 false)
  need (!isNull bl && !ti bl) (raiseTS bl)
  let d ← fetchDescOr bl (raiseTS bl)
  need (!(!d.s && d.typ == 3)) (refuse .descriptor286)
  need (!d.s && d.typ == 11) (raiseTS bl)
  need d.p (raiseNP bl)
  taskSwitch bl d .iret (← look (·.nextEip)) (← look (·.eflags)) none

/-- The return from an exception or interrupt: IRET (43_control_transfer.md R608). It ends NMI service
(10_state.md R107) and leaves RF as loaded (10_state.md R62). -/
def returnFromException : M Unit := do
  upd fun s => { s with nmiLatch := false, ctx := { s.ctx with keepRF := true } }
  if ← look (·.pe) then
    if ← look (·.nt) then taskReturn else iretProt
  else iretReal

/-! ## Running the meaning of an instruction -/

/-- What the completion of an instruction that began in `s` does (10_state.md R62, 61_exception_vectors.md R1020):
RF is cleared, the single-step trap becomes pending, the decode context ends. Each element of a repeated string
instruction completes so, its RF included (log 29). Where the instruction switched tasks and the T bit of the new TSS has
made a trap pending already (47_multitasking.md R878), the two are one: a single exception 1 follows, with BS and BT both
set in DR6 (DESIGN CHOICE, log 37). -/
def complete (s t : State) : State :=
  let t := if t.ctx.keepRF then t else t.putFlag 16 false
  let t := if s.tf then { t with trapPending := true, dr6 := putBit t.dr6 14 true } else t
  { t with ctx := .empty }

/-- Run the meaning of an instruction: LOCK is refused with #UD before an instruction that does not take it
(30_encoding.md R308); the instruction completes, or the exception it raised is taken. -/
def instr (lockable : Bool) (body : M Unit) (s : State) : Outcome :=
  match (do need (!s.ctx.lock || lockable) raiseUD; body : M Unit) { cur := s, base := s, ext := false } with
  | .ok _ t => .next (complete s t.cur)
  | .error (.raise x) t => takeException x t.base
  | .error (.refuse r) _ => .refused r

/-- An instruction that goes on to the next one (10_state.md R51). -/
def seqInstr (lockable : Bool) (body : M Unit) (s : State) : Outcome :=
  instr lockable (do body; upd (·.advance)) s

end Sys2Proof.Machine
end

