-- ==== Sys2Proof/Machine/Fetch.lean ====
section
/-! DEFINITION. Fetching an instruction: the code-segment check on each byte (20_memory.md R204), the prefetch queue
(R250, R251), the 15-byte limit (30_encoding.md R302), and running the items of one instruction. -/

namespace Sys2Proof.Machine

/-- What the decoder depends on besides the bytes (30_encoding.md R310). -/
def State.decodeCtx (s : State) : DecodeCtx := { d32 := s.segs.cs.db }

/-! Looking at memory without any effect, as the prefetcher may (20_memory.md R204, R250). -/

/-- A doubleword of RAM or ROM at a physical address. -/
def State.peekD (s : State) (pa : Dword) : Dword := leVal 32 ((addrsFrom pa 4).map s.byteAt)

/-- A linear address translated for a read without any effect, if it can be. -/
def State.peekAddr (s : State) (la : Dword) : Option Dword :=
  if !s.pg then some la
  else
    let user := s.cpl == 3
    match s.tlbHits la with
    | way :: _ =>
      let e := s.tlbEntry la way
      if user && !e.u then none else some (e.frame ++ la.extractLsb' 0 12)
    | [] =>
      let pde := s.peekD (s.cr3.extractLsb' 12 20 ++ la.extractLsb' 22 10 ++ 0#2)
      let pte := s.peekD (pde.extractLsb' 12 20 ++ la.extractLsb' 12 10 ++ 0#2)
      if pde.getLsbD 0 && pte.getLsbD 0 && (!user || (pde.getLsbD 2 && pte.getLsbD 2)) then
        some (pte.extractLsb' 12 20 ++ la.extractLsb' 0 12)
      else none

/-- The byte of RAM or ROM at an offset of the code segment, if it can be read. -/
def State.peekCode (s : State) (off : Dword) : Option Byte :=
  match s.peekAddr (s.segs.cs.base + off) with
  | none => none
  | some pa =>
    match s.kindAt pa.toNat with
    | .ram | .rom => some (s.byteAt pa)
    | .device | .absent => none

/-- The prefetched copies of the byte at an offset that differ from what memory holds now. -/
def State.staleCopies (s : State) (off : Dword) : List Byte :=
  (s.prefetch.filter fun c => c.1 == off && s.peekCode off != some c.2).map (·.2)

/-- One byte of code from memory (20_memory.md R204). -/
def readCode (off : Dword) : M Byte := do
  let base ← look (·.segs.cs.base)
  let pa ← translate (base + off) false (← isUser)
  pure ((← readPhys [pa]).headD 0)

/-- The byte `k` bytes into the instruction may be fetched: it lies inside the limit of CS (20_memory.md R204), and
execution has not run past the last offset it may reach, nor does the instruction in real-address mode
(10_state.md R52, log 11). R52 says that D is always 0 in real-address mode; where CS still has D = 1 and a limit above
FFFFH there, left from protected mode (92_eei_decisions.md D28), bytes past FFFFH are fetched up to the limit, as in any
32-bit segment: DESIGN CHOICE, log 35. -/
def State.mayFetch (s : State) (k : Nat) : Bool :=
  !s.eipOver && decide (s.eip.toNat + k ≤ s.segs.cs.limit.toNat) &&
    (s.pe || s.segs.cs.db || decide (0xFFFF < s.eip.toNat ∨ s.eip.toNat + k ≤ 0xFFFF))

/-- Fetch the byte `k` bytes into the instruction (20_memory.md R204, R250): from memory, or, where the prefetch queue
may hold an older byte, from any of its copies, as a free value decides (log 13). -/
def fetchByte (k : Nat) : M Byte := do
  let eip ← look (·.eip)
  need (← look (·.mayFetch k)) raiseGP0
  let off := eip + BitVec.ofNat 32 k
  match ← look (·.staleCopies off) with
  | [] => readCode off
  | c :: cs =>
    let x ← anyD
    match (c :: cs)[x.toNat % (cs.length + 2)]? with
    | some b => pure b
    | none => readCode off

/-- Fetch and decode, byte by byte (30_encoding.md R302, R303): the items and the length. -/
def fetchLoop : Nat → List Byte → M (List Instr × Nat)
  | 0, _ => raiseGP0
  | fuel + 1, got => do
    match decode (← look (·.decodeCtx)) got with
    | .ok (items, _) => pure (items, got.length)
    | .error (.undefined _) => raiseUD
    | .error .short =>
      if fuel = 0 then raiseGP0
      else
        let b ← fetchByte got.length
        fetchLoop fuel (got ++ [b])

/-- Fetch the instruction at CS:EIP: at most 15 bytes (30_encoding.md R302). -/
def fetchInstr : M (List Instr × Nat) := fetchLoop 16 []

/-- The offsets the prefetch queue may hold: the instruction's own bytes, which a repeated string instruction fetches
again, and the bytes that follow it (20_memory.md R250). -/
def State.window (s : State) : List Dword :=
  (List.range (s.ctx.len + Config.prefetchBytes)).map fun k => s.eip + BitVec.ofNat 32 k

/-- Prefetch (20_memory.md R250): copies inside the window stay, and each byte of the window is copied as it stands. -/
def State.refill (s : State) : State :=
  let fresh := s.window.filterMap fun o => (s.peekCode o).map fun b => (o, b)
  let kept := s.prefetch.filter fun c => s.window.contains c.1 && !fresh.contains c
  { s with prefetch := kept ++ fresh }

/-- The decode context in which the items of an instruction of `len` bytes run. -/
def State.begin (s : State) (len : Nat) : State := { s with ctx := { Ctx.empty with len := len } }

/-- Run the items of one instruction in order: its prefixes set the context, the last item is the instruction
(30_encoding.md R305). -/
def runItems (ex : Instr → State → Outcome) : List Instr → State → Outcome
  | [], s => .next s
  | i :: rest, s =>
    match ex i s with
    | .next t => runItems ex rest t
    | .fault f => .fault f
    | .refused r => .refused r

/-- Fetch, decode and execute the instruction at CS:EIP (10_state.md R51, 60_exceptions.md R915). -/
def runNext (ex : Instr → State → Outcome) (s : State) : Outcome :=
  match fetchInstr { cur := s, base := s, ext := false } with
  | .ok (items, len) t => runItems ex items (t.cur.begin len).refill
  | .error (.raise x) t => takeException x t.base
  | .error (.refuse r) _ => .refused r

/-- Put bytes where the code from CS:EIP is fetched, and empty the prefetch queue. -/
def State.storeCode (s : State) : Nat → List Byte → State
  | _, [] => { s with prefetch := [] }
  | k, b :: bs =>
    let la := s.segs.cs.base + s.eip + BitVec.ofNat 32 k
    let pa := (s.peekAddr la).getD la
    { s with mem := memSet s.mem pa.toNat b }.storeCode (k + 1) bs

end Sys2Proof.Machine
end

