-- ==== Sys2Proof/Machine/Boundary.lean ====
section
/-! DEFINITION. The instruction boundary (60_exceptions.md R915): RESET, the debug trap, NMI and INTR, each taken as a
step of its own, and the halted state and shutdown. -/

namespace Sys2Proof.Machine

/-- RESET (10_state.md R120 to R130, 70_reset_and_hazards.md R1050): memory and what belongs to the environment
stay. -/
def State.afterReset (s : State) : State :=
  { State.reset with
    mem := s.mem, physMap := s.physMap, ioLog := s.ioLog, freeCtr := s.freeCtr, intr := s.intr, nmi := s.nmi }

/-- The shadows last for one boundary only (60_exceptions.md R915). -/
def State.clearShadows (s : State) : State := { s with inhibitSS := false, inhibitSTI := false }

/-- The event a boundary takes in the state `s` (60_exceptions.md R914, R915, R925, 45_flag_misc.md R731). A shut-down
processor takes none: only RESET leaves shutdown (70_reset_and_hazards.md R1116, 92_eei_decisions.md D10). -/
def State.pendingEvent (s : State) : Option Event :=
  if s.run = .shutdown then none
  else if s.trapPending && !s.inhibitSS then
    some { vec := 1, kind := .exception, err := none, taking := .trap }
  else if s.nmi && !s.nmiLatch && !s.inhibitSS then
    some { vec := 2, kind := .external, err := none, taking := .nmi }
  else
    match s.intr with
    | some v =>
      if s.if' && !s.inhibitSS && !s.inhibitSTI then
        some { vec := v, kind := .external, err := none, taking := .intr }
      else none
    | none => none

/-- The boundary and what follows it (60_exceptions.md R915): one event, or the next instruction, or, while halted,
nothing; in shutdown nothing changes. A debug trap that the shadow of MOV SS holds off is lost (R925). -/
def boundary (ex : Instr → State → Outcome) (s : State) : Outcome :=
  if s.resetPin then .next s.afterReset
  else if s.run = .shutdown then .next s
  else
    let t := { s.clearShadows with trapPending := s.trapPending && !s.inhibitSS }
    match s.pendingEvent with
    | some e => takeEvent e t
    | none =>
      match s.run with
      | .running => runNext ex t
      | .halted | .shutdown => .next t

end Sys2Proof.Machine
end

