-- ==== Sys2Proof/Machine/Arith.lean ====
section
/-! DEFINITION. Binary and decimal arithmetic (41_arithmetic.md R451 to R469). -/

namespace Sys2Proof.Machine

/-! Shared shapes: two operands with a result, two operands compared, one operand. -/

/-- A two-operand operation: the result and the six status flags. -/
abbrev BinOp : Type := (w : Nat) → BitVec w → BitVec w → M (BitVec w × Flags)

/-- A one-operand operation: the result and the six status flags. -/
abbrev UnOp : Type := (w : Nat) → BitVec w → M (BitVec w × Flags)

/-- Combine a destination with a source and write the result and the flags (41_arithmetic.md R451). -/
def binTo (w : Nat) (op : BinOp) (dst : Place) (src : M (BitVec w)) : M Unit := do
  let a ← dst.read w
  let b ← src
  let (r, f) ← op w a b
  dst.write r
  upd (·.setFlags f)

/-- `binTo` on a byte operand. -/
def binEb (op : BinOp) (e : RM Reg8) (src : M Byte) : M Unit := do
  binTo 8 op (← placeB e true) src

/-- `binTo` on an operand of the operand size. -/
def binEv (op : BinOp) (e : RM Gpr) (src : (w : Nat) → M (BitVec w)) : M Unit :=
  withOsz fun w => do binTo w op (← placeV w e true) (src w)

/-- Compare an operand with a source: the flags alone are written (41_arithmetic.md R455). -/
def cmpWith (w : Nat) (op : BinOp) (dst : Place) (src : M (BitVec w)) : M Unit := do
  let a ← dst.read w
  let b ← src
  let (_, f) ← op w a b
  upd (·.setFlags f)

/-- `cmpWith` on a byte operand. -/
def cmpEb (op : BinOp) (e : RM Reg8) (src : M Byte) : M Unit := do
  cmpWith 8 op (← placeB e false) src

/-- `cmpWith` on an operand of the operand size. -/
def cmpEv (op : BinOp) (e : RM Gpr) (src : (w : Nat) → M (BitVec w)) : M Unit :=
  withOsz fun w => do cmpWith w op (← placeV w e false) (src w)

/-- Replace an operand by its image and write the flags (41_arithmetic.md R456). -/
def unTo (w : Nat) (op : UnOp) (dst : Place) : M Unit := do
  let a ← dst.read w
  let (r, f) ← op w a
  dst.write r
  upd (·.setFlags f)

/-- `unTo` on a byte operand. -/
def unEb (op : UnOp) (e : RM Reg8) : M Unit := do
  unTo 8 op (← placeB e true)

/-- `unTo` on an operand of the operand size. -/
def unEv (op : UnOp) (e : RM Gpr) : M Unit :=
  withOsz fun w => do unTo w op (← placeV w e true)

/-- ADD (41_arithmetic.md R451). -/
def addOp : BinOp := fun _ a b => pure (addFlags a b false)
/-- ADC (41_arithmetic.md R452). -/
def adcOp : BinOp := fun _ a b => do pure (addFlags a b (← look (·.cf)))
/-- SUB and CMP (41_arithmetic.md R453, R455). -/
def subOp : BinOp := fun _ a b => pure (subFlags a b false)
/-- SBB (41_arithmetic.md R454). -/
def sbbOp : BinOp := fun _ a b => do pure (subFlags a b (← look (·.cf)))
/-- INC (41_arithmetic.md R456). -/
def incOp : UnOp := fun _ a => do pure (incFlags a (← look (·.flags)))
/-- DEC (41_arithmetic.md R457). -/
def decOp : UnOp := fun _ a => do pure (decFlags a (← look (·.flags)))
/-- NEG (41_arithmetic.md R458). -/
def negOp : UnOp := fun w a => pure (subFlags (0#w) a false)

/-! Multiplication and division. -/

/-- A value of twice the operand size in the accumulator pair: DX:AX or EDX:EAX (41_arithmetic.md R459). -/
def State.setPair (s : State) (w : Nat) (p : BitVec (w + w)) : State :=
  (s.setGprLow .eax (p.setWidth w)).setGprLow .edx (p.extractLsb' w w)

/-- The accumulator pair as one value (41_arithmetic.md R462). -/
def State.pair (s : State) (w : Nat) : BitVec (w + w) := s.gprLow w .edx ++ s.gprLow w .eax

/-- MUL and IMUL of AL (41_arithmetic.md R459, R460). -/
def mulByte (mul : Byte → Byte → BitVec (8 + 8) × Bool) (e : RM Reg8) : M Unit := do
  let b ← readB e
  let (p, c) := mul (← look (·.reg8 .al)) b
  let x ← anyD
  upd fun s => (s.setGprLow .eax p).setFlags (mulFlags c x)

/-- MUL and IMUL of AX or EAX (41_arithmetic.md R459, R460). -/
def mulWord (mul : (w : Nat) → BitVec w → BitVec w → BitVec (w + w) × Bool) (e : RM Gpr) : M Unit :=
  withOsz fun w => do
    let b ← readV w e
    let (p, c) := mul w (← look (·.gprLow w .eax)) b
    let x ← anyD
    upd fun s => (s.setPair w p).setFlags (mulFlags c x)

/-- IMUL with a register destination (41_arithmetic.md R461). -/
def imulTo (w : Nat) (g : Gpr) (a b : BitVec w) : M Unit := do
  let (r, c) := mulTrunc a b
  let x ← anyD
  upd fun s => (s.setGprLow g r).setFlags (mulFlags c x)

/-- DIV and IDIV of AX: quotient in AL, remainder in AH, or #DE (41_arithmetic.md R462, R463). -/
def divByte (div : BitVec (8 + 8) → Byte → Option (Byte × Byte)) (e : RM Reg8) : M Unit := do
  let d ← readB e
  match div (← look (·.gprLow 16 .eax)) d with
  | none => raiseDE
  | some (q, r) =>
    let x ← anyD
    upd fun s => ((s.setReg8 .al q).setReg8 .ah r).setFlags (Flags.free x)

/-- DIV and IDIV of DX:AX or EDX:EAX, or #DE (41_arithmetic.md R462, R463). -/
def divWord (div : (w : Nat) → BitVec (w + w) → BitVec w → Option (BitVec w × BitVec w)) (e : RM Gpr) : M Unit :=
  withOsz fun w => do
    let d ← readV w e
    match div w (← look (·.pair w)) d with
    | none => raiseDE
    | some (q, r) =>
      let x ← anyD
      upd fun s => ((s.setGprLow .eax q).setGprLow .edx r).setFlags (Flags.free x)

/-! Decimal adjustment. -/

/-- DAA and DAS (41_arithmetic.md R464, R465). -/
def adjustAL (f : Byte → Flags → Dword → Byte × Flags) : M Unit := do
  let x ← anyD
  upd fun s =>
    let r := f (s.reg8 .al) s.flags x
    (s.setReg8 .al r.1).setFlags r.2

/-- AAA and AAS (41_arithmetic.md R466, R467). -/
def adjustAX (f : Byte → Byte → Flags → Dword → Byte × Byte × Flags) : M Unit := do
  let x ← anyD
  upd fun s =>
    let r := f (s.reg8 .al) (s.reg8 .ah) s.flags x
    ((s.setReg8 .al r.1).setReg8 .ah r.2.1).setFlags r.2.2

/-- AAM (41_arithmetic.md R468). -/
def aamBody (ib : Byte) : M Unit := do
  if ib = 0 then raiseDE
  else
    let x ← anyD
    upd fun s =>
      let r := aamAlu (s.reg8 .al) ib x
      ((s.setReg8 .al r.1).setReg8 .ah r.2.1).setFlags r.2.2

/-- AAD (41_arithmetic.md R469). -/
def aadBody (ib : Byte) : M Unit := do
  let x ← anyD
  upd fun s =>
    let r := aadAlu (s.reg8 .al) (s.reg8 .ah) ib x
    ((s.setReg8 .al r.1).setReg8 .ah 0).setFlags r.2

/-! The instructions. -/

/-- ADD Eb,Gb, 00 (41_arithmetic.md R451). -/
def execAddEbGb (e : RM Reg8) (g : Reg8) (s : State) : Outcome :=
  seqInstr (isMem e) (binEb addOp e (look (·.reg8 g))) s

/-- ADD Ev,Gv, 01 (41_arithmetic.md R451). -/
def execAddEvGv (e : RM Gpr) (g : Gpr) (s : State) : Outcome :=
  seqInstr (isMem e) (binEv addOp e fun w => look (·.gprLow w g)) s

/-- ADD Gb,Eb, 02 (41_arithmetic.md R451). -/
def execAddGbEb (g : Reg8) (e : RM Reg8) (s : State) : Outcome :=
  seqInstr false (binEb addOp (.reg g) (readB e)) s

/-- ADD Gv,Ev, 03 (41_arithmetic.md R451). -/
def execAddGvEv (g : Gpr) (e : RM Gpr) (s : State) : Outcome :=
  seqInstr false (binEv addOp (.reg g) fun w => readV w e) s

/-- ADD AL,Ib, 04 (41_arithmetic.md R451). -/
def execAddALIb (ib : Byte) (s : State) : Outcome :=
  seqInstr false (binEb addOp (.reg .al) (pure ib)) s

/-- ADD eAX,Iv, 05 (41_arithmetic.md R451). -/
def execAddEAXIv (iv : Dword) (s : State) : Outcome :=
  seqInstr false (binEv addOp (.reg .eax) fun w => pure (iv.setWidth w)) s

/-- ADD Eb,Ib, 80 /0 (41_arithmetic.md R451). -/
def execAddEbIb (e : RM Reg8) (ib : Byte) (s : State) : Outcome :=
  seqInstr (isMem e) (binEb addOp e (pure ib)) s

/-- ADD Ev,Iv, 81 /0 (41_arithmetic.md R451). -/
def execAddEvIv (e : RM Gpr) (iv : Dword) (s : State) : Outcome :=
  seqInstr (isMem e) (binEv addOp e fun w => pure (iv.setWidth w)) s

/-- ADD Ev,Ib, 83 /0 (41_arithmetic.md R451). -/
def execAddEvIb (e : RM Gpr) (ib : Byte) (s : State) : Outcome :=
  seqInstr (isMem e) (binEv addOp e fun w => pure (ib.signExtend w)) s

/-- ADC Eb,Gb, 10 (41_arithmetic.md R452). -/
def execAdcEbGb (e : RM Reg8) (g : Reg8) (s : State) : Outcome :=
  seqInstr (isMem e) (binEb adcOp e (look (·.reg8 g))) s

/-- ADC Ev,Gv, 11 (41_arithmetic.md R452). -/
def execAdcEvGv (e : RM Gpr) (g : Gpr) (s : State) : Outcome :=
  seqInstr (isMem e) (binEv adcOp e fun w => look (·.gprLow w g)) s

/-- ADC Gb,Eb, 12 (41_arithmetic.md R452). -/
def execAdcGbEb (g : Reg8) (e : RM Reg8) (s : State) : Outcome :=
  seqInstr false (binEb adcOp (.reg g) (readB e)) s

/-- ADC Gv,Ev, 13 (41_arithmetic.md R452). -/
def execAdcGvEv (g : Gpr) (e : RM Gpr) (s : State) : Outcome :=
  seqInstr false (binEv adcOp (.reg g) fun w => readV w e) s

/-- ADC AL,Ib, 14 (41_arithmetic.md R452). -/
def execAdcALIb (ib : Byte) (s : State) : Outcome :=
  seqInstr false (binEb adcOp (.reg .al) (pure ib)) s

/-- ADC eAX,Iv, 15 (41_arithmetic.md R452). -/
def execAdcEAXIv (iv : Dword) (s : State) : Outcome :=
  seqInstr false (binEv adcOp (.reg .eax) fun w => pure (iv.setWidth w)) s

/-- ADC Eb,Ib, 80 /2 (41_arithmetic.md R452). -/
def execAdcEbIb (e : RM Reg8) (ib : Byte) (s : State) : Outcome :=
  seqInstr (isMem e) (binEb adcOp e (pure ib)) s

/-- ADC Ev,Iv, 81 /2 (41_arithmetic.md R452). -/
def execAdcEvIv (e : RM Gpr) (iv : Dword) (s : State) : Outcome :=
  seqInstr (isMem e) (binEv adcOp e fun w => pure (iv.setWidth w)) s

/-- ADC Ev,Ib, 83 /2 (41_arithmetic.md R452). -/
def execAdcEvIb (e : RM Gpr) (ib : Byte) (s : State) : Outcome :=
  seqInstr (isMem e) (binEv adcOp e fun w => pure (ib.signExtend w)) s

/-- SUB Eb,Gb, 28 (41_arithmetic.md R453). -/
def execSubEbGb (e : RM Reg8) (g : Reg8) (s : State) : Outcome :=
  seqInstr (isMem e) (binEb subOp e (look (·.reg8 g))) s

/-- SUB Ev,Gv, 29 (41_arithmetic.md R453). -/
def execSubEvGv (e : RM Gpr) (g : Gpr) (s : State) : Outcome :=
  seqInstr (isMem e) (binEv subOp e fun w => look (·.gprLow w g)) s

/-- SUB Gb,Eb, 2A (41_arithmetic.md R453). -/
def execSubGbEb (g : Reg8) (e : RM Reg8) (s : State) : Outcome :=
  seqInstr false (binEb subOp (.reg g) (readB e)) s

/-- SUB Gv,Ev, 2B (41_arithmetic.md R453). -/
def execSubGvEv (g : Gpr) (e : RM Gpr) (s : State) : Outcome :=
  seqInstr false (binEv subOp (.reg g) fun w => readV w e) s

/-- SUB AL,Ib, 2C (41_arithmetic.md R453). -/
def execSubALIb (ib : Byte) (s : State) : Outcome :=
  seqInstr false (binEb subOp (.reg .al) (pure ib)) s

/-- SUB eAX,Iv, 2D (41_arithmetic.md R453). -/
def execSubEAXIv (iv : Dword) (s : State) : Outcome :=
  seqInstr false (binEv subOp (.reg .eax) fun w => pure (iv.setWidth w)) s

/-- SUB Eb,Ib, 80 /5 (41_arithmetic.md R453). -/
def execSubEbIb (e : RM Reg8) (ib : Byte) (s : State) : Outcome :=
  seqInstr (isMem e) (binEb subOp e (pure ib)) s

/-- SUB Ev,Iv, 81 /5 (41_arithmetic.md R453). -/
def execSubEvIv (e : RM Gpr) (iv : Dword) (s : State) : Outcome :=
  seqInstr (isMem e) (binEv subOp e fun w => pure (iv.setWidth w)) s

/-- SUB Ev,Ib, 83 /5 (41_arithmetic.md R453). -/
def execSubEvIb (e : RM Gpr) (ib : Byte) (s : State) : Outcome :=
  seqInstr (isMem e) (binEv subOp e fun w => pure (ib.signExtend w)) s

/-- SBB Eb,Gb, 18 (41_arithmetic.md R454). -/
def execSbbEbGb (e : RM Reg8) (g : Reg8) (s : State) : Outcome :=
  seqInstr (isMem e) (binEb sbbOp e (look (·.reg8 g))) s

/-- SBB Ev,Gv, 19 (41_arithmetic.md R454). -/
def execSbbEvGv (e : RM Gpr) (g : Gpr) (s : State) : Outcome :=
  seqInstr (isMem e) (binEv sbbOp e fun w => look (·.gprLow w g)) s

/-- SBB Gb,Eb, 1A (41_arithmetic.md R454). -/
def execSbbGbEb (g : Reg8) (e : RM Reg8) (s : State) : Outcome :=
  seqInstr false (binEb sbbOp (.reg g) (readB e)) s

/-- SBB Gv,Ev, 1B (41_arithmetic.md R454). -/
def execSbbGvEv (g : Gpr) (e : RM Gpr) (s : State) : Outcome :=
  seqInstr false (binEv sbbOp (.reg g) fun w => readV w e) s

/-- SBB AL,Ib, 1C (41_arithmetic.md R454). -/
def execSbbALIb (ib : Byte) (s : State) : Outcome :=
  seqInstr false (binEb sbbOp (.reg .al) (pure ib)) s

/-- SBB eAX,Iv, 1D (41_arithmetic.md R454). -/
def execSbbEAXIv (iv : Dword) (s : State) : Outcome :=
  seqInstr false (binEv sbbOp (.reg .eax) fun w => pure (iv.setWidth w)) s

/-- SBB Eb,Ib, 80 /3 (41_arithmetic.md R454). -/
def execSbbEbIb (e : RM Reg8) (ib : Byte) (s : State) : Outcome :=
  seqInstr (isMem e) (binEb sbbOp e (pure ib)) s

/-- SBB Ev,Iv, 81 /3 (41_arithmetic.md R454). -/
def execSbbEvIv (e : RM Gpr) (iv : Dword) (s : State) : Outcome :=
  seqInstr (isMem e) (binEv sbbOp e fun w => pure (iv.setWidth w)) s

/-- SBB Ev,Ib, 83 /3 (41_arithmetic.md R454). -/
def execSbbEvIb (e : RM Gpr) (ib : Byte) (s : State) : Outcome :=
  seqInstr (isMem e) (binEv sbbOp e fun w => pure (ib.signExtend w)) s

/-- CMP Eb,Gb, 38 (41_arithmetic.md R455). -/
def execCmpEbGb (e : RM Reg8) (g : Reg8) (s : State) : Outcome :=
  seqInstr false (cmpEb subOp e (look (·.reg8 g))) s

/-- CMP Ev,Gv, 39 (41_arithmetic.md R455). -/
def execCmpEvGv (e : RM Gpr) (g : Gpr) (s : State) : Outcome :=
  seqInstr false (cmpEv subOp e fun w => look (·.gprLow w g)) s

/-- CMP Gb,Eb, 3A (41_arithmetic.md R455). -/
def execCmpGbEb (g : Reg8) (e : RM Reg8) (s : State) : Outcome :=
  seqInstr false (cmpEb subOp (.reg g) (readB e)) s

/-- CMP Gv,Ev, 3B (41_arithmetic.md R455). -/
def execCmpGvEv (g : Gpr) (e : RM Gpr) (s : State) : Outcome :=
  seqInstr false (cmpEv subOp (.reg g) fun w => readV w e) s

/-- CMP AL,Ib, 3C (41_arithmetic.md R455). -/
def execCmpALIb (ib : Byte) (s : State) : Outcome :=
  seqInstr false (cmpEb subOp (.reg .al) (pure ib)) s

/-- CMP eAX,Iv, 3D (41_arithmetic.md R455). -/
def execCmpEAXIv (iv : Dword) (s : State) : Outcome :=
  seqInstr false (cmpEv subOp (.reg .eax) fun w => pure (iv.setWidth w)) s

/-- CMP Eb,Ib, 80 /7 (41_arithmetic.md R455). -/
def execCmpEbIb (e : RM Reg8) (ib : Byte) (s : State) : Outcome :=
  seqInstr false (cmpEb subOp e (pure ib)) s

/-- CMP Ev,Iv, 81 /7 (41_arithmetic.md R455). -/
def execCmpEvIv (e : RM Gpr) (iv : Dword) (s : State) : Outcome :=
  seqInstr false (cmpEv subOp e fun w => pure (iv.setWidth w)) s

/-- CMP Ev,Ib, 83 /7 (41_arithmetic.md R455). -/
def execCmpEvIb (e : RM Gpr) (ib : Byte) (s : State) : Outcome :=
  seqInstr false (cmpEv subOp e fun w => pure (ib.signExtend w)) s

/-- INC rv, 40 + r (41_arithmetic.md R456). -/
def execIncRv (r : Gpr) (s : State) : Outcome :=
  seqInstr false (unEv incOp (.reg r)) s

/-- INC Eb, FE /0 (41_arithmetic.md R456). -/
def execIncEb (e : RM Reg8) (s : State) : Outcome :=
  seqInstr (isMem e) (unEb incOp e) s

/-- INC Ev, FF /0 (41_arithmetic.md R456). -/
def execIncEv (e : RM Gpr) (s : State) : Outcome :=
  seqInstr (isMem e) (unEv incOp e) s

/-- DEC rv, 48 + r (41_arithmetic.md R457). -/
def execDecRv (r : Gpr) (s : State) : Outcome :=
  seqInstr false (unEv decOp (.reg r)) s

/-- DEC Eb, FE /1 (41_arithmetic.md R457). -/
def execDecEb (e : RM Reg8) (s : State) : Outcome :=
  seqInstr (isMem e) (unEb decOp e) s

/-- DEC Ev, FF /1 (41_arithmetic.md R457). -/
def execDecEv (e : RM Gpr) (s : State) : Outcome :=
  seqInstr (isMem e) (unEv decOp e) s

/-- NEG Eb, F6 /3 (41_arithmetic.md R458). -/
def execNegEb (e : RM Reg8) (s : State) : Outcome :=
  seqInstr (isMem e) (unEb negOp e) s

/-- NEG Ev, F7 /3 (41_arithmetic.md R458). -/
def execNegEv (e : RM Gpr) (s : State) : Outcome :=
  seqInstr (isMem e) (unEv negOp e) s

/-- MUL Eb, F6 /4 (41_arithmetic.md R459). -/
def execMulEb (e : RM Reg8) (s : State) : Outcome :=
  seqInstr false (mulByte mulU e) s

/-- MUL Ev, F7 /4 (41_arithmetic.md R459). -/
def execMulEv (e : RM Gpr) (s : State) : Outcome :=
  seqInstr false (mulWord (fun w => mulU (n := w)) e) s

/-- IMUL Eb, F6 /5 (41_arithmetic.md R460). -/
def execImulEb (e : RM Reg8) (s : State) : Outcome :=
  seqInstr false (mulByte mulS e) s

/-- IMUL Ev, F7 /5 (41_arithmetic.md R460). -/
def execImulEv (e : RM Gpr) (s : State) : Outcome :=
  seqInstr false (mulWord (fun w => mulS (n := w)) e) s

/-- IMUL Gv,Ev, 0F AF (41_arithmetic.md R461). -/
def execImulGvEv (g : Gpr) (e : RM Gpr) (s : State) : Outcome :=
  seqInstr false (withOsz fun w => do imulTo w g (← look (·.gprLow w g)) (← readV w e)) s

/-- IMUL Gv,Ev,Iv, 69 (41_arithmetic.md R461). -/
def execImulGvEvIv (g : Gpr) (e : RM Gpr) (iv : Dword) (s : State) : Outcome :=
  seqInstr false (withOsz fun w => do imulTo w g (← readV w e) (iv.setWidth w)) s

/-- IMUL Gv,Ev,Ib, 6B (41_arithmetic.md R461). -/
def execImulGvEvIb (g : Gpr) (e : RM Gpr) (ib : Byte) (s : State) : Outcome :=
  seqInstr false (withOsz fun w => do imulTo w g (← readV w e) (ib.signExtend w)) s

/-- DIV Eb, F6 /6 (41_arithmetic.md R462). -/
def execDivEb (e : RM Reg8) (s : State) : Outcome :=
  seqInstr false (divByte divU e) s

/-- DIV Ev, F7 /6 (41_arithmetic.md R462). -/
def execDivEv (e : RM Gpr) (s : State) : Outcome :=
  seqInstr false (divWord (fun w => divU (n := w)) e) s

/-- IDIV Eb, F6 /7 (41_arithmetic.md R463). -/
def execIdivEb (e : RM Reg8) (s : State) : Outcome :=
  seqInstr false (divByte divS e) s

/-- IDIV Ev, F7 /7 (41_arithmetic.md R463). -/
def execIdivEv (e : RM Gpr) (s : State) : Outcome :=
  seqInstr false (divWord (fun w => divS (n := w)) e) s

/-- DAA, 27 (41_arithmetic.md R464). -/
def execDaa (s : State) : Outcome :=
  seqInstr false (adjustAL daaAlu) s

/-- DAS, 2F (41_arithmetic.md R465). -/
def execDas (s : State) : Outcome :=
  seqInstr false (adjustAL dasAlu) s

/-- AAA, 37 (41_arithmetic.md R466). -/
def execAaa (s : State) : Outcome :=
  seqInstr false (adjustAX aaaAlu) s

/-- AAS, 3F (41_arithmetic.md R467). -/
def execAas (s : State) : Outcome :=
  seqInstr false (adjustAX aasAlu) s

/-- AAM Ib, D4 (41_arithmetic.md R468). -/
def execAamIb (ib : Byte) (s : State) : Outcome :=
  seqInstr false (aamBody ib) s

/-- AAD Ib, D5 (41_arithmetic.md R469). -/
def execAadIb (ib : Byte) (s : State) : Outcome :=
  seqInstr false (aadBody ib) s

end Sys2Proof.Machine
end

