-- ==== Sys2Proof/Machine/Control.lean ====
section
/-! DEFINITION. Control transfer (43_control_transfer.md R560 to R617). The return from an exception stands in
Machine/Ops.lean. -/

namespace Sys2Proof.Machine

/-! Near transfers. -/

/-- A byte displacement (30_encoding.md R337). -/
def ib8 (jb : Byte) : State → Dword := fun _ => jb.signExtend 32

/-- A displacement of the operand size (30_encoding.md R337). -/
def jv32 (jv : Dword) : State → Dword := fun s => if s.o32 then jv else (jv.setWidth 16).signExtend 32

/-- The target of a relative transfer (43_control_transfer.md R560). -/
def State.relTarget (s : State) (disp : State → Dword) : Dword := s.nextEip + disp s

/-- A target truncated by the operand size (43_control_transfer.md R560). -/
def State.truncTarget (s : State) (t : Dword) : Dword := if s.o32 then t else t &&& 0xFFFF

/-- A target is checked against the limit of CS (43_control_transfer.md R560). -/
def needTarget (t : Dword) : M Unit := do
  need (← look fun s => decide (t.toNat ≤ s.segs.cs.limit.toNat)) raiseGP0

/-- `NearBranch` (43_control_transfer.md R560). -/
def nearBranch (t : Dword) : M Unit := do
  let t ← look (·.truncTarget t)
  needTarget t
  upd (·.goTo t)

/-- JMP with a relative target (43_control_transfer.md R561). -/
def jumpRel (disp : State → Dword) : M Unit := do nearBranch (← look (·.relTarget disp))

/-- A conditional relative jump (43_control_transfer.md R563). -/
def jumpIf (c : State → Bool) (disp : State → Dword) : M Unit := do
  if ← look c then jumpRel disp else upd (·.advance)

/-- CX or ECX, by address size (43_control_transfer.md R564). -/
def State.count (s : State) : Dword := if s.a32 then s.gpr .ecx else s.gpr .ecx &&& 0xFFFF

/-- One less in CX or ECX (43_control_transfer.md R565). -/
def State.decCount (s : State) : State :=
  if s.a32 then s.setGpr .ecx (s.gpr .ecx - 1) else s.setGprLow .ecx (s.gprLow 16 .ecx - 1)

/-- LOOP, LOOPE and LOOPNE (43_control_transfer.md R565 to R567). -/
def loopWhile (c : State → Bool) (disp : State → Dword) : M Unit := do
  upd (·.decCount)
  jumpIf (fun s => s.count != 0 && c s) disp

/-- CALL to an offset of the current segment (43_control_transfer.md R568, R569). -/
def nearCall (t : Dword) : M Unit := do
  let t ← look (·.truncTarget t)
  needTarget t
  push (← look (·.oszBytes)) (← look (·.nextEip))
  upd (·.goTo t)

/-- RET, releasing `extra` bytes (43_control_transfer.md R570). -/
def nearReturn (extra : Nat) : M Unit := do
  let t ← pop (← look (·.oszBytes)) 32
  needTarget t
  upd (·.goTo t)
  upd (·.releaseStack extra)

/-! Far transfers. The kind is `.jmp` or `.call`. -/

/-- The two slots of a far return address: CS, its upper half open, and EIP (43_control_transfer.md R577). -/
def returnAddress : M (List Dword) := do
  let cs ← look (·.segs.cs.sel)
  pure [← anySel cs, ← look (·.nextEip)]

/-- Push a far return address if the transfer is a CALL (43_control_transfer.md R577, R589). -/
def pushReturn (k : SwitchKind) (n : Nat) : M Unit := do
  if k = .call then pushAll n (← returnAddress)

/-- A far transfer in real-address mode (43_control_transfer.md R580). -/
def farReal (k : SwitchKind) (sel : Word) (off : Dword) : M Unit := do
  needTarget off
  pushReturn k (← look (·.oszBytes))
  upd fun s => (s.setSeg .cs (s.segs.cs.realLoad sel)).goTo off

/-- A far transfer to a code segment (43_control_transfer.md R585). -/
def codeDirect (k : SwitchKind) (sel : Word) (d : Desc) (off : Dword) : M Unit := do
  let cpl ← look (·.cpl)
  if d.conforming then need (decide (d.dpl.toNat ≤ cpl.toNat)) (raiseGP sel)
  else
    need (decide ((rpl sel).toNat ≤ cpl.toNat)) (raiseGP sel)
    need (d.dpl == cpl) (raiseGP sel)
  need d.p (raiseNP sel)
  need (decide (off.toNat ≤ d.limit32.toNat)) raiseGP0
  pushReturn k (← look (·.oszBytes))
  loadCS (withRpl sel cpl) d off

/-- `GateChecks` (43_control_transfer.md R587): the target's descriptor. -/
def gateChecks (k : SwitchKind) (gsel : Word) (g : Desc) : M Desc := do
  need (← look (·.mayUse g gsel)) (raiseGP gsel)
  need g.p (raiseNP gsel)
  let tsel := g.gateSel
  need (!isNull tsel) raiseGP0
  let d ← fetchDescOr tsel (raiseGP tsel)
  let cpl ← look (·.cpl)
  need d.isCode (raiseGP tsel)
  if k = .jmp && !d.conforming then need (d.dpl == cpl) (raiseGP tsel)
  else need (decide (d.dpl.toNat ≤ cpl.toNat)) (raiseGP tsel)
  need d.p (raiseNP tsel)
  pure d

/-- The parameters a call gate copies, the one at the top of the old stack last, as they are pushed
(43_control_transfer.md R590, R592). -/
def gateParams (c : Nat) : M (List Dword) := do
  let ps ← (List.range c).mapM fun i => stackSlot 4 32 i
  pure ps.reverse

/-- CALL through a call gate to an inner level (43_control_transfer.md R590). -/
def callInner (g d : Desc) : M Unit := do
  let c := g.gateCount.toNat
  let k ← innerStack d.dpl (4 + c)
  need (decide (g.gateOff.toNat ≤ d.limit32.toNat)) raiseGP0
  let params ← gateParams c
  let ss ← look (·.segs.ss.sel)
  let esp ← look (·.gpr .esp)
  let ssSlot ← anySel ss
  let ret ← returnAddress
  enterStack d.dpl k
  pushAll 4 (ssSlot :: esp :: params ++ ret)
  loadCS (withRpl g.gateSel d.dpl) d g.gateOff

/-- A transfer through a call gate (43_control_transfer.md R588 to R590). -/
def throughGate (k : SwitchKind) (gsel : Word) (g : Desc) : M Unit := do
  let d ← gateChecks k gsel g
  let cpl ← look (·.cpl)
  if k = .jmp || d.conforming || d.dpl == cpl then
    need (decide (g.gateOff.toNat ≤ d.limit32.toNat)) raiseGP0
    pushReturn k 4
    loadCS (withRpl g.gateSel cpl) d g.gateOff
  else callInner g d

/-- A transfer to a TSS descriptor switches tasks (43_control_transfer.md R600, 47_multitasking.md R866). -/
def toTss (k : SwitchKind) (sel : Word) (d : Desc) : M Unit := do
  need (!ti sel) (raiseGP sel)
  need (← look (·.mayUse d sel)) (raiseGP sel)
  need (d.typ == 9) (raiseGP sel)
  need d.p (raiseNP sel)
  taskSwitch sel d k (← look (·.nextEip)) (← look (·.eflags)) none

/-- A transfer to a task gate switches tasks (43_control_transfer.md R600, 47_multitasking.md R866). -/
def toTaskGate (k : SwitchKind) (gsel : Word) (g : Desc) : M Unit := do
  need (← look (·.mayUse g gsel)) (raiseGP gsel)
  need g.p (raiseNP gsel)
  gateTarget g.gateSel k (← look (·.nextEip)) (← look (·.eflags)) none

/-- A far transfer in protected mode, by what the selector names (43_control_transfer.md R575). -/
def farProt (k : SwitchKind) (sel : Word) (off : Dword) : M Unit := do
  need (!isNull sel) raiseGP0
  let d ← fetchDescOr sel (raiseGP sel)
  if d.isCode then codeDirect k sel d off
  else if d.s then raiseGP sel
  else
    match d.typ.toNat with
    | 12 => throughGate k sel d
    | 5 => toTaskGate k sel d
    | 9 | 11 => toTss k sel d
    | 1 | 3 | 4 => refuse .descriptor286
    | _ => raiseGP sel

/-- JMP and CALL to a far pointer (43_control_transfer.md R575, R576, R577). -/
def farTransfer (k : SwitchKind) (sel : Word) (off : Dword) : M Unit := do
  if ← look (·.pe) then farProt k sel off else farReal k sel off

/-- JMP and CALL to a far pointer in memory, read as one operand of `osz/8 + 2` bytes (43_control_transfer.md R576,
20_memory.md R143). -/
def farIndirect (k : SwitchKind) (m : Mem) : M Unit :=
  withOsz fun w => do
    let v ← readMem m (w / 8 + 2) (w + 16)
    farTransfer k (v.extractLsb' w 16) ((v.setWidth w).setWidth 32)

/-- RETF in real-address mode (43_control_transfer.md R580): the stack must hold the offset and the two bytes of the selector,
no more. -/
def farReturnReal (extra : Nat) : M Unit := do
  let n ← look (·.oszBytes)
  needStack 0 n 1
  needStack n 2 1
  let off ← readStack 0 n 32
  let sel ← readStack n 2 16
  needTarget off
  upd (·.releaseStack (2 * n + extra))
  upd fun s => (s.setSeg .cs (s.segs.cs.realLoad sel)).goTo off

/-- RETF in protected mode (43_control_transfer.md R595, R596). -/
def farReturnProt (extra : Nat) : M Unit := do
  let n ← look (·.oszBytes)
  let cpl ← look (·.cpl)
  needStack 0 n 2
  let off ← readStack 0 n 32
  let rsel ← readStack n 2 16
  let d ← returnCS rsel
  if (rpl rsel).toNat ≤ cpl.toNat then
    need (decide (off.toNat ≤ d.limit32.toNat)) raiseGP0
    upd (·.releaseStack (2 * n + extra))
    loadCS rsel d off
  else
    let k ← returnSS (2 * n + extra) n rsel
    need (decide (off.toNat ≤ d.limit32.toNat)) raiseGP0
    leaveInner rsel d off k n extra
    upd (·.cleanSegs)

/-- RETF (43_control_transfer.md R578). -/
def farReturn (extra : Nat) : M Unit := do
  if ← look (·.pe) then farReturnProt extra else farReturnReal extra

/-! Software interrupts. -/

/-- INT n, INT 3 and INTO deliver their vector with the offset of the next instruction (43_control_transfer.md R605 to
R607). An exception met meanwhile saves the offset of the instruction itself (log 34). -/
def softwareInt (v : Byte) : M Unit := do deliver v .software none (← look (·.nextEip))

/-- INTO (43_control_transfer.md R607). -/
def intoBody : M Unit := do
  if ← look (·.of) then softwareInt 4 else upd (·.advance)

/-! BOUND, ENTER, LEAVE. -/

/-- BOUND: the lower bound is read first, then the upper, each with its own checks (43_control_transfer.md R615). -/
def boundBody (g : Gpr) (m : Mem) : M Unit :=
  withOsz fun w => do
    let lo : BitVec w ← readMem m (w / 8) w
    let hi : BitVec w ← readPart m (w / 8) (w / 8) w
    let i ← look (·.gprLow w g)
    need (decide (lo.toInt ≤ i.toInt ∧ i.toInt ≤ hi.toInt)) raiseBR

/-- The offset of the `i`-th outer frame pointer ENTER copies: 16 bits wide if the operand size or the stack is
(43_control_transfer.md R616, log 15). -/
def displayOff (narrow : Bool) (ebp : Dword) (n i : Nat) : Dword :=
  let off := ebp - BitVec.ofNat 32 (n * i)
  if narrow then off &&& 0xFFFF else off

/-- Copy `count` outer frame pointers, the `i`-th first (43_control_transfer.md R616). -/
def copyDisplay (narrow : Bool) (ebp : Dword) (n : Nat) : Nat → Nat → M Unit
  | _, 0 => pure ()
  | i, count + 1 => do
    let v ← memRead .ss (displayOff narrow ebp n i) n 32
    push n v
    copyDisplay narrow ebp n (i + 1) count

/-- ENTER (43_control_transfer.md R616). Each push is checked as it is reached, between the reads of the display, in the
order of the pseudocode, not all pushes before the first access: DEDUCED, log 39. -/
def enterBody (iw : Word) (ib : Byte) : M Unit := do
  let level := ib.toNat % 32
  let wide ← look (·.o32)
  let n ← look (·.oszBytes)
  let ebp ← look (·.gpr .ebp)
  let stack ← look (·.stack32)
  push n ebp
  let frame ← look (·.sp)
  if 0 < level then
    copyDisplay (!wide || !stack) ebp n 1 (level - 1)
    push n frame
  if wide then upd (·.setGpr .ebp frame) else upd (·.setGprLow .ebp (frame.setWidth 16))
  upd fun s => s.setSp (s.gpr .esp - iw.setWidth 32)

/-- LEAVE (43_control_transfer.md R617). -/
def leaveBody : M Unit :=
  withOsz fun w => do
    let tmp ← look fun s => stackOff s.stack32 (s.gpr .ebp)
    let v ← memRead .ss tmp (w / 8) w
    upd (·.setSp (tmp + BitVec.ofNat 32 (w / 8)))
    upd (·.setGprLow .ebp v)

/-! The instructions. -/

/-- JMP Jb, EB (43_control_transfer.md R561). -/
def execJmpJb (jb : Byte) (s : State) : Outcome :=
  instr false (jumpRel (ib8 jb)) s

/-- JMP Jv, E9 (43_control_transfer.md R561). -/
def execJmpJv (jv : Dword) (s : State) : Outcome :=
  instr false (jumpRel (jv32 jv)) s

/-- JMP Ev, FF /4 (43_control_transfer.md R562). -/
def execJmpEv (e : RM Gpr) (s : State) : Outcome :=
  instr false (withOsz fun w => do nearBranch ((← readV w e).setWidth 32)) s

/-- Jcc Jb, 70 + cc (43_control_transfer.md R563). -/
def execJccJb (cc : Cond) (jb : Byte) (s : State) : Outcome :=
  instr false (jumpIf (·.cond cc) (ib8 jb)) s

/-- Jcc Jv, 0F 80 + cc (43_control_transfer.md R563). -/
def execJccJv (cc : Cond) (jv : Dword) (s : State) : Outcome :=
  instr false (jumpIf (·.cond cc) (jv32 jv)) s

/-- JCXZ_JECXZ Jb, E3 (43_control_transfer.md R564). -/
def execJcxzJb (jb : Byte) (s : State) : Outcome :=
  instr false (jumpIf (fun s => s.count == 0) (ib8 jb)) s

/-- LOOP Jb, E2 (43_control_transfer.md R565). -/
def execLoopJb (jb : Byte) (s : State) : Outcome :=
  instr false (loopWhile (fun _ => true) (ib8 jb)) s

/-- LOOPE_LOOPZ Jb, E1 (43_control_transfer.md R566). -/
def execLoopeJb (jb : Byte) (s : State) : Outcome :=
  instr false (loopWhile (·.zf) (ib8 jb)) s

/-- LOOPNE_LOOPNZ Jb, E0 (43_control_transfer.md R567). -/
def execLoopneJb (jb : Byte) (s : State) : Outcome :=
  instr false (loopWhile (fun s => !s.zf) (ib8 jb)) s

/-- CALL Jv, E8 (43_control_transfer.md R568). -/
def execCallJv (jv : Dword) (s : State) : Outcome :=
  instr false (do nearCall (← look (·.relTarget (jv32 jv)))) s

/-- CALL Ev, FF /2 (43_control_transfer.md R569). -/
def execCallEv (e : RM Gpr) (s : State) : Outcome :=
  instr false (withOsz fun w => do nearCall ((← readV w e).setWidth 32)) s

/-- RET, C3 (43_control_transfer.md R570). -/
def execRet (s : State) : Outcome :=
  instr false (nearReturn 0) s

/-- RET Iw, C2 (43_control_transfer.md R570). -/
def execRetIw (iw : Word) (s : State) : Outcome :=
  instr false (nearReturn iw.toNat) s

/-- JMP Ap, EA (43_control_transfer.md R576). -/
def execJmpAp (off : Dword) (sel : Word) (s : State) : Outcome :=
  instr false (farTransfer .jmp sel off) s

/-- JMP Ep, FF /5 (43_control_transfer.md R576). -/
def execJmpEp (m : Mem) (s : State) : Outcome :=
  instr false (farIndirect .jmp m) s

/-- CALL Ap, 9A (43_control_transfer.md R577). -/
def execCallAp (off : Dword) (sel : Word) (s : State) : Outcome :=
  instr false (farTransfer .call sel off) s

/-- CALL Ep, FF /3 (43_control_transfer.md R577). -/
def execCallEp (m : Mem) (s : State) : Outcome :=
  instr false (farIndirect .call m) s

/-- RETF, CB (43_control_transfer.md R578). -/
def execRetf (s : State) : Outcome :=
  instr false (farReturn 0) s

/-- RETF Iw, CA (43_control_transfer.md R578). -/
def execRetfIw (iw : Word) (s : State) : Outcome :=
  instr false (farReturn iw.toNat) s

/-- INT Ib, CD (43_control_transfer.md R605). -/
def execIntIb (ib : Byte) (s : State) : Outcome :=
  instr false (softwareInt ib) s

/-- INT_3, CC (43_control_transfer.md R606). -/
def execInt3 (s : State) : Outcome :=
  instr false (softwareInt 3) s

/-- INTO, CE (43_control_transfer.md R607). -/
def execInto (s : State) : Outcome :=
  instr false intoBody s

/-- IRET_IRETD, CF (43_control_transfer.md R608). -/
def execIret (s : State) : Outcome :=
  instr false returnFromException s

/-- BOUND Gv,Ma, 62 (43_control_transfer.md R615). -/
def execBoundGvMa (g : Gpr) (m : Mem) (s : State) : Outcome :=
  seqInstr false (boundBody g m) s

/-- ENTER Iw,Ib, C8 (43_control_transfer.md R616). -/
def execEnterIwIb (iw : Word) (ib : Byte) (s : State) : Outcome :=
  seqInstr false (enterBody iw ib) s

/-- LEAVE, C9 (43_control_transfer.md R617). -/
def execLeave (s : State) : Outcome :=
  seqInstr false leaveBody s

end Sys2Proof.Machine
end

