-- ==== Sys2Proof/Machine/DataMove.lean ====
section
/-! DEFINITION. Data movement (40_data_movement.md R403 to R418). -/

namespace Sys2Proof.Machine

/-- MOV to a byte operand (40_data_movement.md R403). -/
def movEb (e : RM Reg8) (src : M Byte) : M Unit := do
  let v ← src
  (← placeB e true).write v

/-- MOV to an operand of the operand size (40_data_movement.md R403). -/
def movEv (e : RM Gpr) (src : (w : Nat) → M (BitVec w)) : M Unit :=
  withOsz fun w => do
    let v ← src w
    (← placeV w e true).write v

/-- MOV AL from a direct offset (40_data_movement.md R403, 30_encoding.md R338). -/
def loadMoffs8 (o : Dword) : M Unit := do
  let v ← memRead (← look (·.dataSeg)) o 1 8
  upd (·.setReg8 .al v)

/-- MOV AX or EAX from a direct offset (40_data_movement.md R403, 30_encoding.md R338). -/
def loadMoffs (o : Dword) : M Unit :=
  withOsz fun w => do
    let v ← memRead (← look (·.dataSeg)) o (w / 8) w
    upd (·.setGprLow .eax v)

/-- MOV AL to a direct offset (40_data_movement.md R403, 30_encoding.md R338). -/
def storeMoffs8 (o : Dword) : M Unit := do
  memWrite (← look (·.dataSeg)) o 1 (← look (·.reg8 .al))

/-- MOV AX or EAX to a direct offset (40_data_movement.md R403, 30_encoding.md R338). -/
def storeMoffs (o : Dword) : M Unit :=
  withOsz fun w => do memWrite (← look (·.dataSeg)) o (w / 8) (← look (·.gprLow w .eax))

/-- Store a selector or MSW in an `Ew` operand: 16 bits in memory; a 32-bit register gets an open upper half
(40_data_movement.md R404, 46_system.md R777, R781, 92_eei_decisions.md D7). -/
def storeWord (e : RM Gpr) (v : Word) : M Unit :=
  match e with
  | .mem m => writeMem m 2 v
  | .reg r => do
    if ← look (·.o32) then
      let d ← anySel v
      upd (·.setGpr r d)
    else upd (·.setGprLow r v)

/-- MOV to a segment register; SS inhibits events for one boundary (40_data_movement.md R404, 60_exceptions.md R925). -/
def movSreg (sr : Sreg) (e : RM Gpr) : M Unit := do
  if sr = .cs then raiseUD
  else
    loadSeg sr (← readV 16 e)
    if sr = .ss then upd fun s => { s with inhibitSS := true }

/-- XCHG: the first place is read and checked for write first (40_data_movement.md R405). -/
def swap (w : Nat) (dst src : Place) : M Unit := do
  let a ← dst.read w
  let b ← src.read w
  dst.write b
  src.write a

/-- PUSH of a segment register (40_data_movement.md R407). -/
def pushSreg (r : Sreg) : M Unit := do
  let sel ← look fun s => (s.seg r).sel
  if ← look (·.o32) then push 4 (← anySel sel) else push 2 sel

/-- POP to a register or memory; the destination is addressed after the stack pointer moved (40_data_movement.md
R408). -/
def popEv (e : RM Gpr) : M Unit :=
  withOsz fun w => do
    let v ← pop (w / 8) w
    (← placeV w e true).write v

/-- POP to a segment register (40_data_movement.md R409). -/
def popSreg (r : Sreg) : M Unit := do
  let v ← pop (← look (·.oszBytes)) 32
  loadSeg r (v.setWidth 16)
  if r = .ss then upd fun s => { s with inhibitSS := true }

/-- PUSHA and PUSHAD (40_data_movement.md R410). -/
def pushaBody : M Unit := do
  let n ← look (·.oszBytes)
  pushAll n (← look fun s => [s.gprs.eax, s.gprs.ecx, s.gprs.edx, s.gprs.ebx, s.gprs.esp, s.gprs.ebp, s.gprs.esi, s.gprs.edi])

/-- POPA and POPAD; the saved stack pointer is skipped (40_data_movement.md R411). -/
def popaBody : M Unit :=
  withOsz fun w => do
    let n := w / 8
    let di ← stackSlot n w 0
    let si ← stackSlot n w 1
    let bp ← stackSlot n w 2
    let bx ← stackSlot n w 4
    let dx ← stackSlot n w 5
    let cx ← stackSlot n w 6
    let ax ← stackSlot n w 7
    upd fun s =>
      ((((((s.setGprLow .edi di).setGprLow .esi si).setGprLow .ebp bp).setGprLow .ebx bx).setGprLow .edx dx).setGprLow
        .ecx cx).setGprLow .eax ax
    upd (·.releaseStack (8 * n))

/-- MOVZX and MOVSX (40_data_movement.md R412, R413). -/
def extendTo {v : Nat} (w : Nat) (g : Gpr) (f : BitVec v → BitVec w) (x : BitVec v) : M Unit :=
  upd (·.setGprLow g (f x))

/-- CBW and CWDE (40_data_movement.md R414). -/
def cbwBody : M Unit := do
  if ← look (·.o32) then upd fun s => s.setGpr .eax ((s.gprLow 16 .eax).signExtend 32)
  else upd fun s => s.setGprLow .eax ((s.reg8 .al).signExtend 16)

/-- CWD and CDQ (40_data_movement.md R415). -/
def cwdBody : M Unit :=
  withOsz fun w => upd fun s => s.setGprLow .edx (if (s.gprLow w .eax).msb then BitVec.allOnes w else 0#w)

/-- The offset XLAT reads (40_data_movement.md R417). -/
def State.xlatOff (s : State) : Dword :=
  let off := s.gpr .ebx + (s.reg8 .al).setWidth 32
  if s.a32 then off else off &&& 0xFFFF

/-- XLAT (40_data_movement.md R417). -/
def xlatBody : M Unit := do
  let v ← memRead (← look (·.dataSeg)) (← look (·.xlatOff)) 1 8
  upd (·.setReg8 .al v)

/-- A far pointer in memory: the offset is read first, then the selector, each with its own checks (20_memory.md R143,
40_data_movement.md R418). -/
def readFar (w : Nat) (m : Mem) : M (BitVec w × Word) := do
  let off ← readMem m (w / 8) w
  let sel ← readPart m (w / 8) 2 16
  pure (off, sel)

/-- LDS, LES, LFS, LGS and LSS (40_data_movement.md R418). -/
def loadFar (r : Sreg) (g : Gpr) (m : Mem) : M Unit :=
  withOsz fun w => do
    let (off, sel) ← readFar w m
    loadSeg r sel
    upd (·.setGprLow g off)

/-! The instructions. -/

/-- MOV Eb,Gb, 88 (40_data_movement.md R403). -/
def execMovEbGb (e : RM Reg8) (g : Reg8) (s : State) : Outcome :=
  seqInstr false (movEb e (look (·.reg8 g))) s

/-- MOV Ev,Gv, 89 (40_data_movement.md R403). -/
def execMovEvGv (e : RM Gpr) (g : Gpr) (s : State) : Outcome :=
  seqInstr false (movEv e fun w => look (·.gprLow w g)) s

/-- MOV Gb,Eb, 8A (40_data_movement.md R403). -/
def execMovGbEb (g : Reg8) (e : RM Reg8) (s : State) : Outcome :=
  seqInstr false (movEb (.reg g) (readB e)) s

/-- MOV Gv,Ev, 8B (40_data_movement.md R403). -/
def execMovGvEv (g : Gpr) (e : RM Gpr) (s : State) : Outcome :=
  seqInstr false (movEv (.reg g) fun w => readV w e) s

/-- MOV AL,Ob, A0 (40_data_movement.md R403). -/
def execMovALOb (o : Dword) (s : State) : Outcome :=
  seqInstr false (loadMoffs8 o) s

/-- MOV eAX,Ov, A1 (40_data_movement.md R403). -/
def execMovEAXOv (o : Dword) (s : State) : Outcome :=
  seqInstr false (loadMoffs o) s

/-- MOV Ob,AL, A2 (40_data_movement.md R403). -/
def execMovObAL (o : Dword) (s : State) : Outcome :=
  seqInstr false (storeMoffs8 o) s

/-- MOV Ov,eAX, A3 (40_data_movement.md R403). -/
def execMovOvEAX (o : Dword) (s : State) : Outcome :=
  seqInstr false (storeMoffs o) s

/-- MOV rb,Ib, B0 + r (40_data_movement.md R403). -/
def execMovRbIb (r : Reg8) (ib : Byte) (s : State) : Outcome :=
  seqInstr false (movEb (.reg r) (pure ib)) s

/-- MOV rv,Iv, B8 + r (40_data_movement.md R403). -/
def execMovRvIv (r : Gpr) (iv : Dword) (s : State) : Outcome :=
  seqInstr false (movEv (.reg r) fun w => pure (iv.setWidth w)) s

/-- MOV Eb,Ib, C6 /0 (40_data_movement.md R403). -/
def execMovEbIb (e : RM Reg8) (ib : Byte) (s : State) : Outcome :=
  seqInstr false (movEb e (pure ib)) s

/-- MOV Ev,Iv, C7 /0 (40_data_movement.md R403). -/
def execMovEvIv (e : RM Gpr) (iv : Dword) (s : State) : Outcome :=
  seqInstr false (movEv e fun w => pure (iv.setWidth w)) s

/-- MOV Ew,Sw, 8C (40_data_movement.md R404). -/
def execMovEwSw (e : RM Gpr) (sr : Sreg) (s : State) : Outcome :=
  seqInstr false (do storeWord e (← look fun s => (s.seg sr).sel)) s

/-- MOV Sw,Ew, 8E (40_data_movement.md R404). -/
def execMovSwEw (sr : Sreg) (e : RM Gpr) (s : State) : Outcome :=
  seqInstr false (movSreg sr e) s

/-- XCHG Eb,Gb, 86 (40_data_movement.md R405). -/
def execXchgEbGb (e : RM Reg8) (g : Reg8) (s : State) : Outcome :=
  seqInstr (isMem e) (do swap 8 (← placeB e true) (.byte g)) s

/-- XCHG Ev,Gv, 87 (40_data_movement.md R405). -/
def execXchgEvGv (e : RM Gpr) (g : Gpr) (s : State) : Outcome :=
  seqInstr (isMem e) (withOsz fun w => do swap w (← placeV w e true) (.gpr g)) s

/-- XCHG eAX,rv, 90 + r (40_data_movement.md R405). -/
def execXchgEAXRv (r : Gpr) (s : State) : Outcome :=
  seqInstr false (withOsz fun w => swap w (.gpr .eax) (.gpr r)) s

/-- PUSH rv, 50 + r (40_data_movement.md R406). -/
def execPushRv (r : Gpr) (s : State) : Outcome :=
  seqInstr false (withOsz fun w => do push (w / 8) (← look (·.gprLow w r))) s

/-- PUSH Ev, FF /6 (40_data_movement.md R406). -/
def execPushEv (e : RM Gpr) (s : State) : Outcome :=
  seqInstr false (withOsz fun w => do push (w / 8) (← readV w e)) s

/-- PUSH Iv, 68 (40_data_movement.md R406). -/
def execPushIv (iv : Dword) (s : State) : Outcome :=
  seqInstr false (withOsz fun w => push (w / 8) iv) s

/-- PUSH Ib, 6A (40_data_movement.md R406). -/
def execPushIb (ib : Byte) (s : State) : Outcome :=
  seqInstr false (withOsz fun w => push (w / 8) (ib.signExtend w)) s

/-- PUSH_ES, 06 (40_data_movement.md R407). -/
def execPushES (s : State) : Outcome :=
  seqInstr false (pushSreg .es) s

/-- PUSH_CS, 0E (40_data_movement.md R407). -/
def execPushCS (s : State) : Outcome :=
  seqInstr false (pushSreg .cs) s

/-- PUSH_SS, 16 (40_data_movement.md R407). -/
def execPushSS (s : State) : Outcome :=
  seqInstr false (pushSreg .ss) s

/-- PUSH_DS, 1E (40_data_movement.md R407). -/
def execPushDS (s : State) : Outcome :=
  seqInstr false (pushSreg .ds) s

/-- PUSH_FS, 0F A0 (40_data_movement.md R407). -/
def execPushFS (s : State) : Outcome :=
  seqInstr false (pushSreg .fs) s

/-- PUSH_GS, 0F A8 (40_data_movement.md R407). -/
def execPushGS (s : State) : Outcome :=
  seqInstr false (pushSreg .gs) s

/-- POP rv, 58 + r (40_data_movement.md R408). -/
def execPopRv (r : Gpr) (s : State) : Outcome :=
  seqInstr false (popEv (.reg r)) s

/-- POP Ev, 8F /0 (40_data_movement.md R408). -/
def execPopEv (e : RM Gpr) (s : State) : Outcome :=
  seqInstr false (popEv e) s

/-- POP_ES, 07 (40_data_movement.md R409). -/
def execPopES (s : State) : Outcome :=
  seqInstr false (popSreg .es) s

/-- POP_SS, 17 (40_data_movement.md R409). -/
def execPopSS (s : State) : Outcome :=
  seqInstr false (popSreg .ss) s

/-- POP_DS, 1F (40_data_movement.md R409). -/
def execPopDS (s : State) : Outcome :=
  seqInstr false (popSreg .ds) s

/-- POP_FS, 0F A1 (40_data_movement.md R409). -/
def execPopFS (s : State) : Outcome :=
  seqInstr false (popSreg .fs) s

/-- POP_GS, 0F A9 (40_data_movement.md R409). -/
def execPopGS (s : State) : Outcome :=
  seqInstr false (popSreg .gs) s

/-- PUSHA_PUSHAD, 60 (40_data_movement.md R410). -/
def execPusha (s : State) : Outcome :=
  seqInstr false pushaBody s

/-- POPA_POPAD, 61 (40_data_movement.md R411). -/
def execPopa (s : State) : Outcome :=
  seqInstr false popaBody s

/-- MOVZX Gv,Eb, 0F B6 (40_data_movement.md R412). -/
def execMovzxGvEb (g : Gpr) (e : RM Reg8) (s : State) : Outcome :=
  seqInstr false (withOsz fun w => do extendTo w g (·.setWidth w) (← readB e)) s

/-- MOVZX Gv,Ew, 0F B7 (40_data_movement.md R412). -/
def execMovzxGvEw (g : Gpr) (e : RM Gpr) (s : State) : Outcome :=
  seqInstr false (withOsz fun w => do extendTo w g (·.setWidth w) (← readV 16 e)) s

/-- MOVSX Gv,Eb, 0F BE (40_data_movement.md R413). -/
def execMovsxGvEb (g : Gpr) (e : RM Reg8) (s : State) : Outcome :=
  seqInstr false (withOsz fun w => do extendTo w g (·.signExtend w) (← readB e)) s

/-- MOVSX Gv,Ew, 0F BF (40_data_movement.md R413). -/
def execMovsxGvEw (g : Gpr) (e : RM Gpr) (s : State) : Outcome :=
  seqInstr false (withOsz fun w => do extendTo w g (·.signExtend w) (← readV 16 e)) s

/-- CBW_CWDE, 98 (40_data_movement.md R414). -/
def execCbw (s : State) : Outcome :=
  seqInstr false cbwBody s

/-- CWD_CDQ, 99 (40_data_movement.md R415). -/
def execCwd (s : State) : Outcome :=
  seqInstr false cwdBody s

/-- LEA Gv,M, 8D (40_data_movement.md R416). -/
def execLeaGvM (g : Gpr) (m : Mem) (s : State) : Outcome :=
  seqInstr false (withOsz fun w => upd fun s => s.setGprLow g ((s.effOff m).setWidth w)) s

/-- XLAT_XLATB, D7 (40_data_movement.md R417). -/
def execXlat (s : State) : Outcome :=
  seqInstr false xlatBody s

/-- LDS Gv,Mp, C5 (40_data_movement.md R418). -/
def execLdsGvMp (g : Gpr) (m : Mem) (s : State) : Outcome :=
  seqInstr false (loadFar .ds g m) s

/-- LES Gv,Mp, C4 (40_data_movement.md R418). -/
def execLesGvMp (g : Gpr) (m : Mem) (s : State) : Outcome :=
  seqInstr false (loadFar .es g m) s

/-- LFS Gv,Mp, 0F B4 (40_data_movement.md R418). -/
def execLfsGvMp (g : Gpr) (m : Mem) (s : State) : Outcome :=
  seqInstr false (loadFar .fs g m) s

/-- LGS Gv,Mp, 0F B5 (40_data_movement.md R418). -/
def execLgsGvMp (g : Gpr) (m : Mem) (s : State) : Outcome :=
  seqInstr false (loadFar .gs g m) s

/-- LSS Gv,Mp, 0F B2 (40_data_movement.md R418). -/
def execLssGvMp (g : Gpr) (m : Mem) (s : State) : Outcome :=
  seqInstr false (loadFar .ss g m) s

end Sys2Proof.Machine
end

