-- ==== Sys2Proof/Machine/FlagMisc.lean ====
section
/-! DEFINITION. Flag control, HLT, ESC and WAIT (45_flag_misc.md R720 to R753). -/

namespace Sys2Proof.Machine

/-- CPL must not exceed IOPL in protected mode (45_flag_misc.md R725). -/
def needIopl : M Unit := do
  need (← look fun s => !s.pe || decide (s.cpl.toNat ≤ s.iopl.toNat)) raiseGP0

/-- CLI (45_flag_misc.md R725). -/
def cliBody : M Unit := do
  needIopl
  upd (·.putFlag 9 false)

/-- STI; setting IF holds off INTR for one instruction (45_flag_misc.md R726, R731). -/
def stiBody : M Unit := do
  needIopl
  upd fun s => { s.putFlag 9 true with inhibitSTI := !s.if' }

/-- SAHF (45_flag_misc.md R733). -/
def sahfBody : M Unit :=
  upd fun s =>
    let h := s.reg8 .ah
    s.setFlags
      { s.flags with
        sf := h.getLsbD 7, zf := h.getLsbD 6, af := h.getLsbD 4, pf := h.getLsbD 2, cf := h.getLsbD 0 }

/-- PUSHF and PUSHFD: VM and RF are pushed as 0 (45_flag_misc.md R734). -/
def pushfBody : M Unit := do
  push (← look (·.oszBytes)) ((← look (·.eflags)) &&& 0x00FCFFFF)

/-- POPF and POPFD: RF and VM stay (45_flag_misc.md R735). -/
def popfBody : M Unit := do
  let fl ← pop (← look (·.oszBytes)) 32
  upd fun s =>
    { s with
      eflags := writeFlags s.eflags fl false (if s.pe then some s.cpl else none)
      ctx := { s.ctx with keepRF := true } }

/-- The check of a privileged instruction (46_system.md R770, R771). -/
def needPrivilege : M Unit := do
  need (← look fun s => !s.pe || s.cpl == 0) raiseGP0

/-- HLT (45_flag_misc.md R745). -/
def hltBody : M Unit := do
  needPrivilege
  upd fun s => { s with run := .halted }

/-- ESC: exception 7, or, without a coprocessor, nothing; the operand is not accessed (45_flag_misc.md R750, R752). -/
def escBody (_op : BitVec 3) (_e : RM Gpr) : M Unit := do
  need (← look fun s => !s.em && !s.ts) raiseNM
  if Config.coprocessor = .none then pure () else refuse .coprocessor

/-- WAIT (45_flag_misc.md R752, R753). -/
def waitBody : M Unit := do
  need (← look fun s => !(s.mp && s.ts)) raiseNM
  if Config.coprocessor = .none then pure () else refuse .coprocessor

/-! The instructions. -/

/-- CLC, F8 (45_flag_misc.md R720). -/
def execClc (s : State) : Outcome :=
  seqInstr false (upd (·.putFlag 0 false)) s

/-- STC, F9 (45_flag_misc.md R721). -/
def execStc (s : State) : Outcome :=
  seqInstr false (upd (·.putFlag 0 true)) s

/-- CMC, F5 (45_flag_misc.md R722). -/
def execCmc (s : State) : Outcome :=
  seqInstr false (upd fun s => s.putFlag 0 !s.cf) s

/-- CLD, FC (45_flag_misc.md R723). -/
def execCld (s : State) : Outcome :=
  seqInstr false (upd (·.putFlag 10 false)) s

/-- STD, FD (45_flag_misc.md R724). -/
def execStd (s : State) : Outcome :=
  seqInstr false (upd (·.putFlag 10 true)) s

/-- CLI, FA (45_flag_misc.md R725). -/
def execCli (s : State) : Outcome :=
  seqInstr false cliBody s

/-- STI, FB (45_flag_misc.md R726). -/
def execSti (s : State) : Outcome :=
  seqInstr false stiBody s

/-- LAHF, 9F (45_flag_misc.md R732). -/
def execLahf (s : State) : Outcome :=
  seqInstr false (upd fun s => s.setReg8 .ah (s.eflags.setWidth 8)) s

/-- SAHF, 9E (45_flag_misc.md R733). -/
def execSahf (s : State) : Outcome :=
  seqInstr false sahfBody s

/-- PUSHF_PUSHFD, 9C (45_flag_misc.md R734). -/
def execPushf (s : State) : Outcome :=
  seqInstr false pushfBody s

/-- POPF_POPFD, 9D (45_flag_misc.md R735). -/
def execPopf (s : State) : Outcome :=
  seqInstr false popfBody s

/-- NOP, 90 (45_flag_misc.md R740). -/
def execNop (s : State) : Outcome :=
  seqInstr false (pure ()) s

/-- HLT, F4 (45_flag_misc.md R745). -/
def execHlt (s : State) : Outcome :=
  seqInstr false hltBody s

/-- ESC_0 E, D8 (45_flag_misc.md R750). -/
def execEsc0 (op : BitVec 3) (e : RM Gpr) (s : State) : Outcome :=
  seqInstr false (escBody op e) s

/-- ESC_1 E, D9 (45_flag_misc.md R750). -/
def execEsc1 (op : BitVec 3) (e : RM Gpr) (s : State) : Outcome :=
  seqInstr false (escBody op e) s

/-- ESC_2 E, DA (45_flag_misc.md R750). -/
def execEsc2 (op : BitVec 3) (e : RM Gpr) (s : State) : Outcome :=
  seqInstr false (escBody op e) s

/-- ESC_3 E, DB (45_flag_misc.md R750). -/
def execEsc3 (op : BitVec 3) (e : RM Gpr) (s : State) : Outcome :=
  seqInstr false (escBody op e) s

/-- ESC_4 E, DC (45_flag_misc.md R750). -/
def execEsc4 (op : BitVec 3) (e : RM Gpr) (s : State) : Outcome :=
  seqInstr false (escBody op e) s

/-- ESC_5 E, DD (45_flag_misc.md R750). -/
def execEsc5 (op : BitVec 3) (e : RM Gpr) (s : State) : Outcome :=
  seqInstr false (escBody op e) s

/-- ESC_6 E, DE (45_flag_misc.md R750). -/
def execEsc6 (op : BitVec 3) (e : RM Gpr) (s : State) : Outcome :=
  seqInstr false (escBody op e) s

/-- ESC_7 E, DF (45_flag_misc.md R750). -/
def execEsc7 (op : BitVec 3) (e : RM Gpr) (s : State) : Outcome :=
  seqInstr false (escBody op e) s

/-- WAIT, 9B (45_flag_misc.md R753). -/
def execWait (s : State) : Outcome :=
  seqInstr false waitBody s

end Sys2Proof.Machine
end

