-- ==== Sys2Proof/Machine/Logic.lean ====
section
/-! DEFINITION. Boolean instructions and SETcc (42_logic_shift_bit.md R500 to R505, R523, R524). -/

namespace Sys2Proof.Machine

/-- A Boolean result with its flags; AF is a free value (42_logic_shift_bit.md R500). -/
def logicResult {w : Nat} (r : BitVec w) : M (BitVec w × Flags) := do pure (r, logicFlags r (← anyD))

/-- AND and TEST (42_logic_shift_bit.md R501, R505). -/
def andOp : BinOp := fun _ a b => logicResult (a &&& b)
/-- OR (42_logic_shift_bit.md R502). -/
def orOp : BinOp := fun _ a b => logicResult (a ||| b)
/-- XOR (42_logic_shift_bit.md R503). -/
def xorOp : BinOp := fun _ a b => logicResult (a ^^^ b)
/-- NOT: no flag changes (42_logic_shift_bit.md R504). -/
def notOp : UnOp := fun _ a => do pure (~~~a, ← look (·.flags))

/-- SETcc (42_logic_shift_bit.md R524). -/
def setByte (cc : Cond) (e : RM Reg8) : M Unit := do
  (← placeB e true).write (bitVal (n := 8) (← look (·.cond cc)))

/-- AND Eb,Gb, 20 (42_logic_shift_bit.md R501). -/
def execAndEbGb (e : RM Reg8) (g : Reg8) (s : State) : Outcome :=
  seqInstr (isMem e) (binEb andOp e (look (·.reg8 g))) s

/-- AND Ev,Gv, 21 (42_logic_shift_bit.md R501). -/
def execAndEvGv (e : RM Gpr) (g : Gpr) (s : State) : Outcome :=
  seqInstr (isMem e) (binEv andOp e fun w => look (·.gprLow w g)) s

/-- AND Gb,Eb, 22 (42_logic_shift_bit.md R501). -/
def execAndGbEb (g : Reg8) (e : RM Reg8) (s : State) : Outcome :=
  seqInstr false (binEb andOp (.reg g) (readB e)) s

/-- AND Gv,Ev, 23 (42_logic_shift_bit.md R501). -/
def execAndGvEv (g : Gpr) (e : RM Gpr) (s : State) : Outcome :=
  seqInstr false (binEv andOp (.reg g) fun w => readV w e) s

/-- AND AL,Ib, 24 (42_logic_shift_bit.md R501). -/
def execAndALIb (ib : Byte) (s : State) : Outcome :=
  seqInstr false (binEb andOp (.reg .al) (pure ib)) s

/-- AND eAX,Iv, 25 (42_logic_shift_bit.md R501). -/
def execAndEAXIv (iv : Dword) (s : State) : Outcome :=
  seqInstr false (binEv andOp (.reg .eax) fun w => pure (iv.setWidth w)) s

/-- AND Eb,Ib, 80 /4 (42_logic_shift_bit.md R501). -/
def execAndEbIb (e : RM Reg8) (ib : Byte) (s : State) : Outcome :=
  seqInstr (isMem e) (binEb andOp e (pure ib)) s

/-- AND Ev,Iv, 81 /4 (42_logic_shift_bit.md R501). -/
def execAndEvIv (e : RM Gpr) (iv : Dword) (s : State) : Outcome :=
  seqInstr (isMem e) (binEv andOp e fun w => pure (iv.setWidth w)) s

/-- AND Ev,Ib, 83 /4 (42_logic_shift_bit.md R501). -/
def execAndEvIb (e : RM Gpr) (ib : Byte) (s : State) : Outcome :=
  seqInstr (isMem e) (binEv andOp e fun w => pure (ib.signExtend w)) s

/-- OR Eb,Gb, 08 (42_logic_shift_bit.md R502). -/
def execOrEbGb (e : RM Reg8) (g : Reg8) (s : State) : Outcome :=
  seqInstr (isMem e) (binEb orOp e (look (·.reg8 g))) s

/-- OR Ev,Gv, 09 (42_logic_shift_bit.md R502). -/
def execOrEvGv (e : RM Gpr) (g : Gpr) (s : State) : Outcome :=
  seqInstr (isMem e) (binEv orOp e fun w => look (·.gprLow w g)) s

/-- OR Gb,Eb, 0A (42_logic_shift_bit.md R502). -/
def execOrGbEb (g : Reg8) (e : RM Reg8) (s : State) : Outcome :=
  seqInstr false (binEb orOp (.reg g) (readB e)) s

/-- OR Gv,Ev, 0B (42_logic_shift_bit.md R502). -/
def execOrGvEv (g : Gpr) (e : RM Gpr) (s : State) : Outcome :=
  seqInstr false (binEv orOp (.reg g) fun w => readV w e) s

/-- OR AL,Ib, 0C (42_logic_shift_bit.md R502). -/
def execOrALIb (ib : Byte) (s : State) : Outcome :=
  seqInstr false (binEb orOp (.reg .al) (pure ib)) s

/-- OR eAX,Iv, 0D (42_logic_shift_bit.md R502). -/
def execOrEAXIv (iv : Dword) (s : State) : Outcome :=
  seqInstr false (binEv orOp (.reg .eax) fun w => pure (iv.setWidth w)) s

/-- OR Eb,Ib, 80 /1 (42_logic_shift_bit.md R502). -/
def execOrEbIb (e : RM Reg8) (ib : Byte) (s : State) : Outcome :=
  seqInstr (isMem e) (binEb orOp e (pure ib)) s

/-- OR Ev,Iv, 81 /1 (42_logic_shift_bit.md R502). -/
def execOrEvIv (e : RM Gpr) (iv : Dword) (s : State) : Outcome :=
  seqInstr (isMem e) (binEv orOp e fun w => pure (iv.setWidth w)) s

/-- OR Ev,Ib, 83 /1 (42_logic_shift_bit.md R502). -/
def execOrEvIb (e : RM Gpr) (ib : Byte) (s : State) : Outcome :=
  seqInstr (isMem e) (binEv orOp e fun w => pure (ib.signExtend w)) s

/-- XOR Eb,Gb, 30 (42_logic_shift_bit.md R503). -/
def execXorEbGb (e : RM Reg8) (g : Reg8) (s : State) : Outcome :=
  seqInstr (isMem e) (binEb xorOp e (look (·.reg8 g))) s

/-- XOR Ev,Gv, 31 (42_logic_shift_bit.md R503). -/
def execXorEvGv (e : RM Gpr) (g : Gpr) (s : State) : Outcome :=
  seqInstr (isMem e) (binEv xorOp e fun w => look (·.gprLow w g)) s

/-- XOR Gb,Eb, 32 (42_logic_shift_bit.md R503). -/
def execXorGbEb (g : Reg8) (e : RM Reg8) (s : State) : Outcome :=
  seqInstr false (binEb xorOp (.reg g) (readB e)) s

/-- XOR Gv,Ev, 33 (42_logic_shift_bit.md R503). -/
def execXorGvEv (g : Gpr) (e : RM Gpr) (s : State) : Outcome :=
  seqInstr false (binEv xorOp (.reg g) fun w => readV w e) s

/-- XOR AL,Ib, 34 (42_logic_shift_bit.md R503). -/
def execXorALIb (ib : Byte) (s : State) : Outcome :=
  seqInstr false (binEb xorOp (.reg .al) (pure ib)) s

/-- XOR eAX,Iv, 35 (42_logic_shift_bit.md R503). -/
def execXorEAXIv (iv : Dword) (s : State) : Outcome :=
  seqInstr false (binEv xorOp (.reg .eax) fun w => pure (iv.setWidth w)) s

/-- XOR Eb,Ib, 80 /6 (42_logic_shift_bit.md R503). -/
def execXorEbIb (e : RM Reg8) (ib : Byte) (s : State) : Outcome :=
  seqInstr (isMem e) (binEb xorOp e (pure ib)) s

/-- XOR Ev,Iv, 81 /6 (42_logic_shift_bit.md R503). -/
def execXorEvIv (e : RM Gpr) (iv : Dword) (s : State) : Outcome :=
  seqInstr (isMem e) (binEv xorOp e fun w => pure (iv.setWidth w)) s

/-- XOR Ev,Ib, 83 /6 (42_logic_shift_bit.md R503). -/
def execXorEvIb (e : RM Gpr) (ib : Byte) (s : State) : Outcome :=
  seqInstr (isMem e) (binEv xorOp e fun w => pure (ib.signExtend w)) s

/-- TEST Eb,Gb, 84 (42_logic_shift_bit.md R505). -/
def execTestEbGb (e : RM Reg8) (g : Reg8) (s : State) : Outcome :=
  seqInstr false (cmpEb andOp e (look (·.reg8 g))) s

/-- TEST Ev,Gv, 85 (42_logic_shift_bit.md R505). -/
def execTestEvGv (e : RM Gpr) (g : Gpr) (s : State) : Outcome :=
  seqInstr false (cmpEv andOp e fun w => look (·.gprLow w g)) s

/-- TEST AL,Ib, A8 (42_logic_shift_bit.md R505). -/
def execTestALIb (ib : Byte) (s : State) : Outcome :=
  seqInstr false (cmpEb andOp (.reg .al) (pure ib)) s

/-- TEST eAX,Iv, A9 (42_logic_shift_bit.md R505). -/
def execTestEAXIv (iv : Dword) (s : State) : Outcome :=
  seqInstr false (cmpEv andOp (.reg .eax) fun w => pure (iv.setWidth w)) s

/-- TEST Eb,Ib, F6 /0 (42_logic_shift_bit.md R505). -/
def execTestEbIb (e : RM Reg8) (ib : Byte) (s : State) : Outcome :=
  seqInstr false (cmpEb andOp e (pure ib)) s

/-- TEST Ev,Iv, F7 /0 (42_logic_shift_bit.md R505). -/
def execTestEvIv (e : RM Gpr) (iv : Dword) (s : State) : Outcome :=
  seqInstr false (cmpEv andOp e fun w => pure (iv.setWidth w)) s

/-- NOT Eb, F6 /2 (42_logic_shift_bit.md R504). -/
def execNotEb (e : RM Reg8) (s : State) : Outcome :=
  seqInstr (isMem e) (unEb notOp e) s

/-- NOT Ev, F7 /2 (42_logic_shift_bit.md R504). -/
def execNotEv (e : RM Gpr) (s : State) : Outcome :=
  seqInstr (isMem e) (unEv notOp e) s

/-- SETcc Eb, 0F 90 + cc (42_logic_shift_bit.md R524). -/
def execSetccEb (cc : Cond) (e : RM Reg8) (s : State) : Outcome :=
  seqInstr false (setByte cc e) s

end Sys2Proof.Machine
end

