-- ==== Sys2Proof/Machine/System.lean ====
section
/-! DEFINITION. System instructions (46_system.md R770 to R819) and the TLB test commands (20_memory.md R270 to
R274). -/

namespace Sys2Proof.Machine

/-- The instruction is undefined in real-address mode (46_system.md R771). -/
def needProtected : M Unit := do need (← look (·.pe)) raiseUD

/-! Descriptor-table registers. -/

/-- The operand of LGDT and LIDT: limit, then base, of 24 bits with a 16-bit operand size (46_system.md R772, R773). -/
def loadTable (m : Mem) : M TableReg := do
  needPrivilege
  let limit : Word ← readMem m 2 16
  let base : Dword ← readPart m 2 4 32
  pure { base := if ← look (·.o32) then base else base &&& 0x00FFFFFF, limit := limit }

/-- SGDT and SIDT: the sixth byte is open with a 16-bit operand size (46_system.md R774, R775,
93_implementation_defined.md U13). -/
def storeTable (m : Mem) (t : TableReg) : M Unit := do
  let limitAt ← partPlan m 0 2 true
  let baseAt ← partPlan m 2 4 true
  let base : Dword ← if ← look (·.o32) then pure t.base
    else do
      let top ← anyBits 8
      pure (top ++ (t.base.setWidth 24 : BitVec 24))
  writePhys limitAt (leBytes 2 t.limit)
  writePhys baseAt (leBytes 4 base)

/-- LLDT (46_system.md R776). -/
def lldtBody (e : RM Gpr) : M Unit := do
  needProtected
  needPrivilege
  let sel ← readV 16 e
  if isNull sel then upd fun s => { s with ldtr := { s.ldtr with sel := sel, valid := false } }
  else
    need (!ti sel) (raiseGP sel)
    let d ← fetchDescOr sel (raiseGP sel)
    need (!d.s && d.typ == 2) (raiseGP sel)
    need d.p (raiseNP sel)
    upd fun s => { s with ldtr := { sel := sel, base := d.base, limit := d.limit32, valid := true } }

/-! The machine status word. -/

/-- LMSW: PE can be set, not cleared (46_system.md R780). -/
def lmswBody (e : RM Gpr) : M Unit := do
  needPrivilege
  let v ← readV 16 e
  upd fun s => { s with cr0 := putField s.cr0 0 (v.extractLsb' 1 3 ++ BitVec.ofBool (s.pe || v.getLsbD 0)) }

/-- CR0 as it is read: bits 30:5 are open (46_system.md R800, 10_state.md R87). -/
def readCr0 : M Dword := do
  let x ← anyD
  look fun s => (s.cr0 &&& 0x8000001F) ||| (x &&& 0x7FFFFFE0)

/-- The low half of CR0 as SMSW reads it (46_system.md R781). -/
def readMsw : M Word := do pure ((← readCr0).setWidth 16)

/-- CLTS (46_system.md R782). -/
def cltsBody : M Unit := do
  needPrivilege
  upd fun s => { s with cr0 := putBit s.cr0 3 false }

/-! Control and debug registers. -/

/-- The six status flags take any value (46_system.md R800, R805, R810). -/
def anyFlags : M Unit := do
  let x ← anyD
  upd (·.setFlags (Flags.free x))

/-- Read a control register (46_system.md R800). -/
def readCr (n : BitVec 3) : M Dword := do
  match n.toNat with
  | 0 => do
    needPrivilege
    readCr0
  | 2 => do
    needPrivilege
    look (·.cr2)
  | 3 => do
    needPrivilege
    let x ← anyD
    look fun s => (s.cr3 &&& 0xFFFFF000) ||| (x &&& 0xFFF)
  | _ => raiseUD

/-- Write a control register (46_system.md R800). A write of CR3 empties the TLB and so orders translation (20_memory.md
R242, R262); a write of CR0 does neither that nor empties the prefetch queue (R250, R262). -/
def writeCr (n : BitVec 3) (v : Dword) : M Unit := do
  match n.toNat with
  | 0 => do
    needPrivilege
    need (!(v.getLsbD 31 && !v.getLsbD 0)) raiseGP0
    upd fun s => { s with cr0 := v &&& 0x8000001F }
  | 2 => do
    needPrivilege
    upd fun s => { s with cr2 := v }
  | 3 => do
    needPrivilege
    upd fun s => { s with cr3 := v &&& 0xFFFFF000 }.flushTlb
  | _ => raiseUD

/-- Read a debug register (46_system.md R805). -/
def readDr (n : BitVec 3) : M Dword := do
  match n.toNat with
  | 0 => do
    needPrivilege
    look (·.dr0)
  | 1 => do
    needPrivilege
    look (·.dr1)
  | 2 => do
    needPrivilege
    look (·.dr2)
  | 3 => do
    needPrivilege
    look (·.dr3)
  | 6 => do
    needPrivilege
    look (·.dr6)
  | 7 => do
    needPrivilege
    look (·.dr7)
  | _ => raiseUD

/-- Write a debug register; a breakpoint enabled in DR7 is outside the spec (46_system.md R805, 00_scope.md R6). -/
def writeDr (n : BitVec 3) (v : Dword) : M Unit := do
  match n.toNat with
  | 0 => do
    needPrivilege
    upd fun s => { s with dr0 := v }
  | 1 => do
    needPrivilege
    upd fun s => { s with dr1 := v }
  | 2 => do
    needPrivilege
    upd fun s => { s with dr2 := v }
  | 3 => do
    needPrivilege
    upd fun s => { s with dr3 := v }
  | 6 => do
    needPrivilege
    upd fun s => { s with dr6 := v }
  | 7 => do
    needPrivilege
    need (!(v.extractLsb' 0 8 != 0 || v.getLsbD 13)) (refuse .breakpointEnabled)
    upd fun s => { s with dr7 := v }
  | _ => raiseUD

/-! The TLB test registers (10_state.md R100, R101). -/

/-- One attribute bit from its pair in TR6: the pairs 00 and 11 are open (20_memory.md R273). -/
def pairBit (x xn free : Bool) : Bool := if x == xn then free else x

/-- Whether an attribute bit matches its pair in TR6; for the pairs 00 and 11 that is open (20_memory.md R273). -/
def pairMatch (x xn bit free : Bool) : Bool := if x == xn then free else bit == x

/-- The entry a TLB write places (20_memory.md R271). -/
def testEntry (tr6 tr7 x : Dword) : TlbEntry :=
  { tag := tlbTag tr6
    v := tr6.getLsbD 11
    d := pairBit (tr6.getLsbD 10) (tr6.getLsbD 9) (x.getLsbD 0)
    u := pairBit (tr6.getLsbD 8) (tr6.getLsbD 7) (x.getLsbD 1)
    w := pairBit (tr6.getLsbD 6) (tr6.getLsbD 5) (x.getLsbD 2)
    frame := tr7.extractLsb' 12 20 }

/-- An entry with any contents (93_implementation_defined.md U8d). -/
def anyEntry : M TlbEntry := do
  let x ← anyD
  let y ← anyD
  pure
    { tag := x.extractLsb' 12 20, v := x.getLsbD 0, d := x.getLsbD 1, u := x.getLsbD 2, w := x.getLsbD 3,
      frame := y.extractLsb' 12 20 }

/-- The selected set takes any contents (93_implementation_defined.md U8d). -/
def anySet (la : Dword) : M Unit := do
  (List.range Config.tlbWays).forM fun way => do
    let e ← anyEntry
    updBoth (·.setTlbEntry la way e)

/-- Another way of the set holds a valid entry with the tag (20_memory.md R271). -/
def State.duplicateTag (s : State) (la : Dword) (way : Nat) : Bool := (s.tlbHits la).any (· != way)

/-- The TLB write command (20_memory.md R271, R273). -/
def tlbWriteCommand (tr6 : Dword) : M Unit := do
  let tr7 ← look (·.tr7)
  if !tr7.getLsbD 4 then anySet tr6
  else
    let x ← anyD
    let way := (tr7.extractLsb' 2 2).toNat
    if ← look (·.duplicateTag tr6 way) then
      updBoth fun s => { s with tlbDup := tlbTag tr6 :: s.tlbDup }
    updBoth (·.setTlbEntry tr6 way (testEntry tr6 tr7 x))

/-- An entry matches a TLB lookup; `x` decides the open pairs (20_memory.md R272, R273). -/
def TlbEntry.matchesTest (e : TlbEntry) (tr6 x : Dword) : Bool :=
  e.tag == tlbTag tr6 && e.v == tr6.getLsbD 11 &&
    pairMatch (tr6.getLsbD 10) (tr6.getLsbD 9) e.d (x.getLsbD 0) &&
    pairMatch (tr6.getLsbD 8) (tr6.getLsbD 7) e.u (x.getLsbD 1) &&
    pairMatch (tr6.getLsbD 6) (tr6.getLsbD 5) e.w (x.getLsbD 2)

/-- TR6 with its attribute pairs set from an entry (20_memory.md R272). -/
def TlbEntry.intoTr6 (e : TlbEntry) (tr6 : Dword) : Dword :=
  putField tr6 5
    (BitVec.ofBool e.d ++ BitVec.ofBool (!e.d) ++ BitVec.ofBool e.u ++ BitVec.ofBool (!e.u) ++ BitVec.ofBool e.w ++
      BitVec.ofBool (!e.w))

/-- The ways whose entries match a TLB lookup, each with a free value of its own (20_memory.md R272). -/
def matchingWays (tr6 : Dword) : List Nat → M (List Nat)
  | [] => pure []
  | way :: ways => do
    let x ← anyD
    let rest ← matchingWays tr6 ways
    if ← look fun s => (s.tlbEntry tr6 way).matchesTest tr6 x then pure (way :: rest) else pure rest

/-- The rest of TR6 takes any value: its attribute bits 10:5 (20_memory.md R272, log 21). -/
def anyAttributes (tr6 : Dword) : M Unit := do
  let x ← anyD
  upd fun s => { s with tr6 := putField tr6 5 (x.extractLsb' 5 6) }

/-- The TLB lookup command (20_memory.md R272, 93_implementation_defined.md U8, U8b, U8c). Where no single entry sets
TR6 and TR7, TR7 is open; the attribute bits of TR6 are open too where several entries match or the tag was written
twice, and stay as written where none matches or V is 0 (log 21). -/
def tlbLookupCommand (tr6 : Dword) : M Unit := do
  let any ← anyD
  if (← look (·.tlbDup)).contains (tlbTag tr6) then
    upd fun s => { s with tr7 := any }
    anyAttributes tr6
  else if !tr6.getLsbD 11 then upd fun s => { s with tr7 := any }
  else
    match ← matchingWays tr6 (List.range Config.tlbWays) with
    | [] => upd fun s => { s with tr7 := any &&& 0xFFFFF00C }
    | [way] =>
      upd fun s =>
        let e := s.tlbEntry tr6 way
        { s with tr6 := e.intoTr6 tr6, tr7 := e.frame ++ (0x010#12 ||| BitVec.ofNat 12 (4 * way)) }
    | _ :: _ :: _ =>
      upd fun s => { s with tr7 := any }
      anyAttributes tr6

/-- Read a test register: the reserved bits are open (46_system.md R810, 10_state.md R100, R101,
93_implementation_defined.md U2, log 28). -/
def readTr (n : BitVec 3) : M Dword := do
  match n.toNat with
  | 6 => do
    needPrivilege
    let x ← anyD
    look fun s => (s.tr6 &&& 0xFFFFFFE1) ||| (x &&& 0x1E)
  | 7 => do
    needPrivilege
    let x ← anyD
    look fun s => (s.tr7 &&& 0xFFFFF01C) ||| (x &&& 0xFE3)
  | _ => raiseUD

/-- Write a test register; TR6 runs its command (46_system.md R810, 20_memory.md R270). -/
def writeTr (n : BitVec 3) (v : Dword) : M Unit := do
  match n.toNat with
  | 6 => do
    needPrivilege
    upd fun s => { s with tr6 := v }
    if v.getLsbD 0 then tlbLookupCommand v else tlbWriteCommand v
  | 7 => do
    needPrivilege
    upd fun s => { s with tr7 := v }
  | _ => raiseUD

/-! Pointer validation. -/

/-- `Probe` (46_system.md R814): none for a null selector or one outside its table. -/
def probe (sel : Word) : M (Option Desc) := do
  if isNull sel then pure none else fetchDesc sel

/-- Write ZF. -/
def setZf (b : Bool) : M Unit := upd (·.putFlag 6 b)

/-- The descriptor is accessible from CPL and the selector's RPL, or conforming (46_system.md R816). -/
def State.reaches (s : State) (d : Desc) (sel : Word) : Bool := d.isCode && d.conforming || s.mayUse d sel

/-- ARPL (46_system.md R815). The check for write access marks the page dirty even where nothing is adjusted
(log 31). -/
def arplBody (e : RM Gpr) (g : Gpr) : M Unit := do
  needProtected
  let dst ← placeV 16 e true
  let d ← dst.read 16
  let r ← look fun s => rpl (s.gprLow 16 g)
  if (rpl d).toNat < r.toNat then
    dst.write (withRpl d r)
    setZf true
  else setZf false

/-- The types LAR accepts (46_system.md R816). -/
def Desc.larType (d : Desc) : Bool := d.s || [1, 2, 3, 4, 5, 9, 11, 12].contains d.typ.toNat

/-- The types LSL accepts (46_system.md R817). -/
def Desc.lslType (d : Desc) : Bool := d.s || [1, 2, 3, 9, 11].contains d.typ.toNat

/-- LAR: bits 19:16 of a 32-bit result are open (46_system.md R816). -/
def larBody (g : Gpr) (e : RM Gpr) : M Unit := do
  needProtected
  let sel ← readV 16 e
  match ← probe sel with
  | none => setZf false
  | some d =>
    if d.larType && (← look (·.reaches d sel)) then
      let hi : Dword := d.raw.extractLsb' 32 32
      if ← look (·.o32) then
        let x ← anyD
        upd (·.setGpr g ((hi &&& 0x00F0FF00) ||| (x &&& 0x000F0000)))
      else upd (·.setGprLow g ((hi.setWidth 16 : Word) &&& 0xFF00))
      setZf true
    else setZf false

/-- LSL (46_system.md R817). -/
def lslBody (g : Gpr) (e : RM Gpr) : M Unit := do
  needProtected
  let sel ← readV 16 e
  match ← probe sel with
  | none => setZf false
  | some d =>
    if d.lslType && (← look (·.reaches d sel)) then
      withOsz fun w => upd (·.setGprLow g (d.limit32.setWidth w))
      setZf true
    else setZf false

/-- The segment can be read (46_system.md R818). -/
def readOk (s : State) (d : Desc) (sel : Word) : Bool := d.readable && s.reaches d sel

/-- The segment can be written (46_system.md R819). -/
def writeOk (s : State) (d : Desc) (sel : Word) : Bool := d.writableData && s.mayUse d sel

/-- VERR and VERW (46_system.md R818, R819). -/
def verifyBody (ok : State → Desc → Word → Bool) (e : RM Gpr) : M Unit := do
  needProtected
  let sel ← readV 16 e
  match ← probe sel with
  | none => setZf false
  | some d => setZf (← look fun s => ok s d sel)

/-! The instructions. -/

/-- LGDT Ms, 0F 01 /2 (46_system.md R772). -/
def execLgdtMs (m : Mem) (s : State) : Outcome :=
  seqInstr false (do let t ← loadTable m; upd fun s => { s with gdtr := t }) s

/-- LIDT Ms, 0F 01 /3 (46_system.md R773). -/
def execLidtMs (m : Mem) (s : State) : Outcome :=
  seqInstr false (do let t ← loadTable m; upd fun s => { s with idtr := t }) s

/-- SGDT Ms, 0F 01 /0 (46_system.md R774). -/
def execSgdtMs (m : Mem) (s : State) : Outcome :=
  seqInstr false (do storeTable m (← look (·.gdtr))) s

/-- SIDT Ms, 0F 01 /1 (46_system.md R775). -/
def execSidtMs (m : Mem) (s : State) : Outcome :=
  seqInstr false (do storeTable m (← look (·.idtr))) s

/-- LLDT Ew, 0F 00 /2 (46_system.md R776). -/
def execLldtEw (e : RM Gpr) (s : State) : Outcome :=
  seqInstr false (lldtBody e) s

/-- SLDT Ew, 0F 00 /0 (46_system.md R777). -/
def execSldtEw (e : RM Gpr) (s : State) : Outcome :=
  seqInstr false (do needProtected; storeWord e (← look (·.ldtr.sel))) s

/-- LMSW Ew, 0F 01 /6 (46_system.md R780). -/
def execLmswEw (e : RM Gpr) (s : State) : Outcome :=
  seqInstr false (lmswBody e) s

/-- SMSW Ew, 0F 01 /4 (46_system.md R781). -/
def execSmswEw (e : RM Gpr) (s : State) : Outcome :=
  seqInstr false (do storeWord e (← readMsw)) s

/-- CLTS, 0F 06 (46_system.md R782). -/
def execClts (s : State) : Outcome :=
  seqInstr false cltsBody s

/-- MOV Rd,Cd, 0F 20 (46_system.md R800). -/
def execMovRdCd (r : Gpr) (n : BitVec 3) (s : State) : Outcome :=
  seqInstr false (do let v ← readCr n; upd (·.setGpr r v); anyFlags) s

/-- MOV Cd,Rd, 0F 22 (46_system.md R800). -/
def execMovCdRd (n : BitVec 3) (r : Gpr) (s : State) : Outcome :=
  seqInstr false (do writeCr n (← look (·.gpr r)); anyFlags) s

/-- MOV Rd,Dd, 0F 21 (46_system.md R805). -/
def execMovRdDd (r : Gpr) (n : BitVec 3) (s : State) : Outcome :=
  seqInstr false (do let v ← readDr n; upd (·.setGpr r v); anyFlags) s

/-- MOV Dd,Rd, 0F 23 (46_system.md R805). -/
def execMovDdRd (n : BitVec 3) (r : Gpr) (s : State) : Outcome :=
  seqInstr false (do writeDr n (← look (·.gpr r)); anyFlags) s

/-- MOV Rd,Td, 0F 24 (46_system.md R810). -/
def execMovRdTd (r : Gpr) (n : BitVec 3) (s : State) : Outcome :=
  seqInstr false (do let v ← readTr n; upd (·.setGpr r v); anyFlags) s

/-- MOV Td,Rd, 0F 26 (46_system.md R810). -/
def execMovTdRd (n : BitVec 3) (r : Gpr) (s : State) : Outcome :=
  seqInstr false (do writeTr n (← look (·.gpr r)); anyFlags) s

/-- ARPL Ew,Gw, 63 (46_system.md R815). -/
def execArplEwGw (e : RM Gpr) (g : Gpr) (s : State) : Outcome :=
  seqInstr false (arplBody e g) s

/-- LAR Gv,Ew, 0F 02 (46_system.md R816). -/
def execLarGvEw (g : Gpr) (e : RM Gpr) (s : State) : Outcome :=
  seqInstr false (larBody g e) s

/-- LSL Gv,Ew, 0F 03 (46_system.md R817). -/
def execLslGvEw (g : Gpr) (e : RM Gpr) (s : State) : Outcome :=
  seqInstr false (lslBody g e) s

/-- VERR Ew, 0F 00 /4 (46_system.md R818). -/
def execVerrEw (e : RM Gpr) (s : State) : Outcome :=
  seqInstr false (verifyBody readOk e) s

/-- VERW Ew, 0F 00 /5 (46_system.md R819). -/
def execVerwEw (e : RM Gpr) (s : State) : Outcome :=
  seqInstr false (verifyBody writeOk e) s

end Sys2Proof.Machine
end

