-- ==== Sys2Proof/Machine/Multitask.lean ====
section
/-! DEFINITION. LTR and STR (47_multitasking.md R860, R861). The task switch stands in Machine/Task.lean. -/

namespace Sys2Proof.Machine

/-- LTR (47_multitasking.md R860). -/
def ltrBody (e : RM Gpr) : M Unit := do
  needProtected
  needPrivilege
  let sel ← readV 16 e
  need (!isNull sel) raiseGP0
  need (!ti sel) (raiseGP sel)
  let d ← fetchDescOr sel (raiseGP sel)
  need (!(!d.s && d.typ == 1)) (refuse .descriptor286)
  need (!d.s && d.typ == 9) (raiseGP sel)
  need d.p (raiseNP sel)
  changeAccess (← linPlan (d.addr + 5) 1 true false) (· ||| 2)
  upd fun s => { s with tr := { sel := sel, base := d.base, limit := d.limit32, valid := true } }

/-! The instructions. -/

/-- LTR Ew, 0F 00 /3 (47_multitasking.md R860). -/
def execLtrEw (e : RM Gpr) (s : State) : Outcome :=
  seqInstr false (ltrBody e) s

/-- STR Ew, 0F 00 /1 (47_multitasking.md R861). -/
def execStrEw (e : RM Gpr) (s : State) : Outcome :=
  seqInstr false (do needProtected; storeWord e (← look (·.tr.sel))) s

end Sys2Proof.Machine
end

