-- ==== Sys2Proof/Machine/Prefixes.lean ====
section
/-! DEFINITION. The prefixes (30_encoding.md R305 to R311): each is noted in the decode context of the instruction it
stands before. Of several segment or repeat prefixes the last one counts (R306, R307). -/

namespace Sys2Proof.Machine

/-- Note a prefix in the decode context. -/
def notePrefix (f : Ctx → Ctx) (s : State) : Outcome := .next { s with ctx := f s.ctx }

/-- The prefix ES, 26 (30_encoding.md R306, R305, R309). -/
def execPfxES (s : State) : Outcome :=
  notePrefix (fun c => { c with seg := some .es }) s

/-- The prefix CS, 2E (30_encoding.md R306, R305, R309). -/
def execPfxCS (s : State) : Outcome :=
  notePrefix (fun c => { c with seg := some .cs }) s

/-- The prefix SS, 36 (30_encoding.md R306, R305, R309). -/
def execPfxSS (s : State) : Outcome :=
  notePrefix (fun c => { c with seg := some .ss }) s

/-- The prefix DS, 3E (30_encoding.md R306, R305, R309). -/
def execPfxDS (s : State) : Outcome :=
  notePrefix (fun c => { c with seg := some .ds }) s

/-- The prefix FS, 64 (30_encoding.md R306, R305, R309). -/
def execPfxFS (s : State) : Outcome :=
  notePrefix (fun c => { c with seg := some .fs }) s

/-- The prefix GS, 65 (30_encoding.md R306, R305, R309). -/
def execPfxGS (s : State) : Outcome :=
  notePrefix (fun c => { c with seg := some .gs }) s

/-- The prefix operand-size, 66 (30_encoding.md R310, R305, R309). -/
def execPfxOpSize (s : State) : Outcome :=
  notePrefix (fun c => { c with op66 := true }) s

/-- The prefix address-size, 67 (30_encoding.md R311, R305, R309). -/
def execPfxAddrSize (s : State) : Outcome :=
  notePrefix (fun c => { c with ad67 := true }) s

/-- The prefix LOCK, F0 (30_encoding.md R308, R305, R309). -/
def execPfxLock (s : State) : Outcome :=
  notePrefix (fun c => { c with lock := true }) s

/-- The prefix REPNE, REPNZ, F2 (30_encoding.md R307, R305, R309). -/
def execPfxRepne (s : State) : Outcome :=
  notePrefix (fun c => { c with rep := some .repne }) s

/-- The prefix REP, REPE, REPZ, F3 (30_encoding.md R307, R305, R309). -/
def execPfxRep (s : State) : Outcome :=
  notePrefix (fun c => { c with rep := some .rep }) s

end Sys2Proof.Machine
end

