-- ==== Sys2Proof/Machine/ShiftBit.lean ====
section
/-! DEFINITION. Shifts, rotates, double shifts, bit tests and bit scans (42_logic_shift_bit.md R506 to R522). -/

namespace Sys2Proof.Machine

/-- A shift or rotate by a count that is not 0: operand, count, old flags, free value. -/
abbrev ShiftOp : Type := (w : Nat) → BitVec w → Nat → Flags → Dword → BitVec w × Flags

/-- ROL (42_logic_shift_bit.md R510). -/
def rolOp : ShiftOp := fun _ a c old x => rolAlu a c old x
/-- ROR (42_logic_shift_bit.md R511). -/
def rorOp : ShiftOp := fun _ a c old x => rorAlu a c old x
/-- RCL (42_logic_shift_bit.md R512). -/
def rclOp : ShiftOp := fun _ a c old x => rclAlu a c old x
/-- RCR (42_logic_shift_bit.md R513). -/
def rcrOp : ShiftOp := fun _ a c old x => rcrAlu a c old x
/-- SHL (42_logic_shift_bit.md R507). -/
def shlOp : ShiftOp := fun _ a c _ x => shlAlu a c x
/-- SHR (42_logic_shift_bit.md R508). -/
def shrOp : ShiftOp := fun _ a c _ x => shrAlu a c x
/-- SAR (42_logic_shift_bit.md R509). -/
def sarOp : ShiftOp := fun _ a c _ x => sarAlu a c x

/-- Shift or rotate an operand; with a masked count of 0 nothing changes, after the checks on the operand
(42_logic_shift_bit.md R506), which mark its page dirty all the same (log 31). -/
def shiftTo (w : Nat) (op : ShiftOp) (dst : Place) (count : M Byte) : M Unit := do
  let a ← dst.read w
  let c := maskCount (← count)
  if c = 0 then pure ()
  else
    let x ← anyD
    let (r, f) := op w a c (← look (·.flags)) x
    dst.write r
    upd (·.setFlags f)

/-- `shiftTo` on a byte operand. -/
def shiftEb (op : ShiftOp) (e : RM Reg8) (count : M Byte) : M Unit := do
  shiftTo 8 op (← placeB e true) count

/-- `shiftTo` on an operand of the operand size. -/
def shiftEv (op : ShiftOp) (e : RM Gpr) (count : M Byte) : M Unit :=
  withOsz fun w => do shiftTo w op (← placeV w e true) count

/-- SHLD and SHRD (42_logic_shift_bit.md R514, R515); a count of 0 as in `shiftTo` (log 31). -/
def doubleShift (op : (w : Nat) → BitVec w → BitVec w → Nat → Dword → BitVec w → BitVec w × Flags) (e : RM Gpr)
    (g : Gpr) (count : M Byte) : M Unit :=
  withOsz fun w => do
    let dst ← placeV w e true
    let a ← dst.read w
    let b ← look (·.gprLow w g)
    let c := maskCount (← count)
    if c = 0 then pure ()
    else
      let x ← anyD
      let y ← anyBits w
      let (r, f) := op w a b c x y
      dst.write r
      upd (·.setFlags f)

/-! Bits. -/

/-- A bit offset: an immediate, or a register (42_logic_shift_bit.md R516). -/
inductive BitIndex where
  | imm (ib : Byte)
  | reg (g : Gpr)
  deriving DecidableEq, Repr

/-- An immediate bit offset. -/
abbrev bitImm (ib : Byte) : BitIndex := .imm ib
/-- A bit offset in a register. -/
abbrev bitReg (g : Gpr) : BitIndex := .reg g

/-- The bit offset as an integer: a register's is signed (42_logic_shift_bit.md R516). -/
def State.bitOffset (s : State) (w : Nat) : BitIndex → Int
  | .imm ib => ib.toNat
  | .reg g => (s.gprLow w g).toInt

/-- The number of the bit inside its word (42_logic_shift_bit.md R516). -/
def bitNumber (w : Nat) (o : Int) : Nat := (o % (w : Int)).toNat

/-- The offset of the word that holds the bit: a register offset moves by whole words, truncated to the address size;
an immediate one does not (42_logic_shift_bit.md R516). -/
def bitWordOff (a32 : Bool) (w : Nat) (off : Dword) (x : BitIndex) (o : Int) : Dword :=
  match x with
  | .imm _ => off
  | .reg _ =>
    let moved := off + BitVec.ofInt 32 (((w / 8 : Nat) : Int) * (o / (w : Int)))
    if a32 then moved else moved &&& 0xFFFF

/-- The place of the word that holds the bit (42_logic_shift_bit.md R516). -/
def bitPlace (w : Nat) (e : RM Gpr) (x : BitIndex) (write : Bool) : M Place :=
  match e with
  | .reg r => pure (.gpr r)
  | .mem m => do
    let o ← look (·.bitOffset w x)
    let off ← look fun s => bitWordOff s.a32 w (s.effOff m) x o
    memPlace (← look (·.effSeg m)) off (w / 8) write

/-- BT (42_logic_shift_bit.md R517). -/
def bitTest (e : RM Gpr) (x : BitIndex) : M Unit :=
  withOsz fun w => do
    let i ← look fun s => bitNumber w (s.bitOffset w x)
    let v ← (← bitPlace w e x false).read w
    let u ← anyD
    upd (·.setFlags (bitFlags (v.getLsbD i) u))

/-- BTS, BTR and BTC (42_logic_shift_bit.md R518 to R520). -/
def bitChange (change : (w : Nat) → BitVec w → Nat → BitVec w) (e : RM Gpr) (x : BitIndex) : M Unit :=
  withOsz fun w => do
    let i ← look fun s => bitNumber w (s.bitOffset w x)
    let dst ← bitPlace w e x true
    let v ← dst.read w
    dst.write (change w v i)
    let u ← anyD
    upd (·.setFlags (bitFlags (v.getLsbD i) u))

/-- BTS (42_logic_shift_bit.md R518). -/
def setBit (w : Nat) (v : BitVec w) (i : Nat) : BitVec w := putBit v i true
/-- BTR (42_logic_shift_bit.md R519). -/
def clearBit (w : Nat) (v : BitVec w) (i : Nat) : BitVec w := putBit v i false
/-- BTC (42_logic_shift_bit.md R520). -/
def flipBit (w : Nat) (v : BitVec w) (i : Nat) : BitVec w := putBit v i (!v.getLsbD i)

/-- BSF and BSR: the destination is a free value when the source is 0 (42_logic_shift_bit.md R521, R522). -/
def bitScan (find : (w : Nat) → BitVec w → Option Nat) (g : Gpr) (e : RM Gpr) : M Unit :=
  withOsz fun w => do
    let a ← readV w e
    let u ← anyD
    match find w a with
    | none =>
      let y ← anyBits w
      upd fun s => (s.setGprLow g y).setFlags (scanFlags true u)
    | some i => upd fun s => (s.setGprLow g (BitVec.ofNat w i)).setFlags (scanFlags false u)

/-! The instructions. -/

/-- ROL Eb,1, D0 /0 (42_logic_shift_bit.md R510). -/
def execRolEb1 (e : RM Reg8) (s : State) : Outcome :=
  seqInstr false (shiftEb rolOp e (pure 1)) s

/-- ROL Ev,1, D1 /0 (42_logic_shift_bit.md R510). -/
def execRolEv1 (e : RM Gpr) (s : State) : Outcome :=
  seqInstr false (shiftEv rolOp e (pure 1)) s

/-- ROL Eb,CL, D2 /0 (42_logic_shift_bit.md R510). -/
def execRolEbCL (e : RM Reg8) (s : State) : Outcome :=
  seqInstr false (shiftEb rolOp e (look (·.reg8 .cl))) s

/-- ROL Ev,CL, D3 /0 (42_logic_shift_bit.md R510). -/
def execRolEvCL (e : RM Gpr) (s : State) : Outcome :=
  seqInstr false (shiftEv rolOp e (look (·.reg8 .cl))) s

/-- ROL Eb,Ib, C0 /0 (42_logic_shift_bit.md R510). -/
def execRolEbIb (e : RM Reg8) (ib : Byte) (s : State) : Outcome :=
  seqInstr false (shiftEb rolOp e (pure ib)) s

/-- ROL Ev,Ib, C1 /0 (42_logic_shift_bit.md R510). -/
def execRolEvIb (e : RM Gpr) (ib : Byte) (s : State) : Outcome :=
  seqInstr false (shiftEv rolOp e (pure ib)) s

/-- ROR Eb,1, D0 /1 (42_logic_shift_bit.md R511). -/
def execRorEb1 (e : RM Reg8) (s : State) : Outcome :=
  seqInstr false (shiftEb rorOp e (pure 1)) s

/-- ROR Ev,1, D1 /1 (42_logic_shift_bit.md R511). -/
def execRorEv1 (e : RM Gpr) (s : State) : Outcome :=
  seqInstr false (shiftEv rorOp e (pure 1)) s

/-- ROR Eb,CL, D2 /1 (42_logic_shift_bit.md R511). -/
def execRorEbCL (e : RM Reg8) (s : State) : Outcome :=
  seqInstr false (shiftEb rorOp e (look (·.reg8 .cl))) s

/-- ROR Ev,CL, D3 /1 (42_logic_shift_bit.md R511). -/
def execRorEvCL (e : RM Gpr) (s : State) : Outcome :=
  seqInstr false (shiftEv rorOp e (look (·.reg8 .cl))) s

/-- ROR Eb,Ib, C0 /1 (42_logic_shift_bit.md R511). -/
def execRorEbIb (e : RM Reg8) (ib : Byte) (s : State) : Outcome :=
  seqInstr false (shiftEb rorOp e (pure ib)) s

/-- ROR Ev,Ib, C1 /1 (42_logic_shift_bit.md R511). -/
def execRorEvIb (e : RM Gpr) (ib : Byte) (s : State) : Outcome :=
  seqInstr false (shiftEv rorOp e (pure ib)) s

/-- RCL Eb,1, D0 /2 (42_logic_shift_bit.md R512). -/
def execRclEb1 (e : RM Reg8) (s : State) : Outcome :=
  seqInstr false (shiftEb rclOp e (pure 1)) s

/-- RCL Ev,1, D1 /2 (42_logic_shift_bit.md R512). -/
def execRclEv1 (e : RM Gpr) (s : State) : Outcome :=
  seqInstr false (shiftEv rclOp e (pure 1)) s

/-- RCL Eb,CL, D2 /2 (42_logic_shift_bit.md R512). -/
def execRclEbCL (e : RM Reg8) (s : State) : Outcome :=
  seqInstr false (shiftEb rclOp e (look (·.reg8 .cl))) s

/-- RCL Ev,CL, D3 /2 (42_logic_shift_bit.md R512). -/
def execRclEvCL (e : RM Gpr) (s : State) : Outcome :=
  seqInstr false (shiftEv rclOp e (look (·.reg8 .cl))) s

/-- RCL Eb,Ib, C0 /2 (42_logic_shift_bit.md R512). -/
def execRclEbIb (e : RM Reg8) (ib : Byte) (s : State) : Outcome :=
  seqInstr false (shiftEb rclOp e (pure ib)) s

/-- RCL Ev,Ib, C1 /2 (42_logic_shift_bit.md R512). -/
def execRclEvIb (e : RM Gpr) (ib : Byte) (s : State) : Outcome :=
  seqInstr false (shiftEv rclOp e (pure ib)) s

/-- RCR Eb,1, D0 /3 (42_logic_shift_bit.md R513). -/
def execRcrEb1 (e : RM Reg8) (s : State) : Outcome :=
  seqInstr false (shiftEb rcrOp e (pure 1)) s

/-- RCR Ev,1, D1 /3 (42_logic_shift_bit.md R513). -/
def execRcrEv1 (e : RM Gpr) (s : State) : Outcome :=
  seqInstr false (shiftEv rcrOp e (pure 1)) s

/-- RCR Eb,CL, D2 /3 (42_logic_shift_bit.md R513). -/
def execRcrEbCL (e : RM Reg8) (s : State) : Outcome :=
  seqInstr false (shiftEb rcrOp e (look (·.reg8 .cl))) s

/-- RCR Ev,CL, D3 /3 (42_logic_shift_bit.md R513). -/
def execRcrEvCL (e : RM Gpr) (s : State) : Outcome :=
  seqInstr false (shiftEv rcrOp e (look (·.reg8 .cl))) s

/-- RCR Eb,Ib, C0 /3 (42_logic_shift_bit.md R513). -/
def execRcrEbIb (e : RM Reg8) (ib : Byte) (s : State) : Outcome :=
  seqInstr false (shiftEb rcrOp e (pure ib)) s

/-- RCR Ev,Ib, C1 /3 (42_logic_shift_bit.md R513). -/
def execRcrEvIb (e : RM Gpr) (ib : Byte) (s : State) : Outcome :=
  seqInstr false (shiftEv rcrOp e (pure ib)) s

/-- SHL_SAL Eb,1, D0 /4 (42_logic_shift_bit.md R507). -/
def execShlEb1 (e : RM Reg8) (s : State) : Outcome :=
  seqInstr false (shiftEb shlOp e (pure 1)) s

/-- SHL_SAL Ev,1, D1 /4 (42_logic_shift_bit.md R507). -/
def execShlEv1 (e : RM Gpr) (s : State) : Outcome :=
  seqInstr false (shiftEv shlOp e (pure 1)) s

/-- SHL_SAL Eb,CL, D2 /4 (42_logic_shift_bit.md R507). -/
def execShlEbCL (e : RM Reg8) (s : State) : Outcome :=
  seqInstr false (shiftEb shlOp e (look (·.reg8 .cl))) s

/-- SHL_SAL Ev,CL, D3 /4 (42_logic_shift_bit.md R507). -/
def execShlEvCL (e : RM Gpr) (s : State) : Outcome :=
  seqInstr false (shiftEv shlOp e (look (·.reg8 .cl))) s

/-- SHL_SAL Eb,Ib, C0 /4 (42_logic_shift_bit.md R507). -/
def execShlEbIb (e : RM Reg8) (ib : Byte) (s : State) : Outcome :=
  seqInstr false (shiftEb shlOp e (pure ib)) s

/-- SHL_SAL Ev,Ib, C1 /4 (42_logic_shift_bit.md R507). -/
def execShlEvIb (e : RM Gpr) (ib : Byte) (s : State) : Outcome :=
  seqInstr false (shiftEv shlOp e (pure ib)) s

/-- SHR Eb,1, D0 /5 (42_logic_shift_bit.md R508). -/
def execShrEb1 (e : RM Reg8) (s : State) : Outcome :=
  seqInstr false (shiftEb shrOp e (pure 1)) s

/-- SHR Ev,1, D1 /5 (42_logic_shift_bit.md R508). -/
def execShrEv1 (e : RM Gpr) (s : State) : Outcome :=
  seqInstr false (shiftEv shrOp e (pure 1)) s

/-- SHR Eb,CL, D2 /5 (42_logic_shift_bit.md R508). -/
def execShrEbCL (e : RM Reg8) (s : State) : Outcome :=
  seqInstr false (shiftEb shrOp e (look (·.reg8 .cl))) s

/-- SHR Ev,CL, D3 /5 (42_logic_shift_bit.md R508). -/
def execShrEvCL (e : RM Gpr) (s : State) : Outcome :=
  seqInstr false (shiftEv shrOp e (look (·.reg8 .cl))) s

/-- SHR Eb,Ib, C0 /5 (42_logic_shift_bit.md R508). -/
def execShrEbIb (e : RM Reg8) (ib : Byte) (s : State) : Outcome :=
  seqInstr false (shiftEb shrOp e (pure ib)) s

/-- SHR Ev,Ib, C1 /5 (42_logic_shift_bit.md R508). -/
def execShrEvIb (e : RM Gpr) (ib : Byte) (s : State) : Outcome :=
  seqInstr false (shiftEv shrOp e (pure ib)) s

/-- SAR Eb,1, D0 /7 (42_logic_shift_bit.md R509). -/
def execSarEb1 (e : RM Reg8) (s : State) : Outcome :=
  seqInstr false (shiftEb sarOp e (pure 1)) s

/-- SAR Ev,1, D1 /7 (42_logic_shift_bit.md R509). -/
def execSarEv1 (e : RM Gpr) (s : State) : Outcome :=
  seqInstr false (shiftEv sarOp e (pure 1)) s

/-- SAR Eb,CL, D2 /7 (42_logic_shift_bit.md R509). -/
def execSarEbCL (e : RM Reg8) (s : State) : Outcome :=
  seqInstr false (shiftEb sarOp e (look (·.reg8 .cl))) s

/-- SAR Ev,CL, D3 /7 (42_logic_shift_bit.md R509). -/
def execSarEvCL (e : RM Gpr) (s : State) : Outcome :=
  seqInstr false (shiftEv sarOp e (look (·.reg8 .cl))) s

/-- SAR Eb,Ib, C0 /7 (42_logic_shift_bit.md R509). -/
def execSarEbIb (e : RM Reg8) (ib : Byte) (s : State) : Outcome :=
  seqInstr false (shiftEb sarOp e (pure ib)) s

/-- SAR Ev,Ib, C1 /7 (42_logic_shift_bit.md R509). -/
def execSarEvIb (e : RM Gpr) (ib : Byte) (s : State) : Outcome :=
  seqInstr false (shiftEv sarOp e (pure ib)) s

/-- SHLD Ev,Gv,Ib, 0F A4 (42_logic_shift_bit.md R514). -/
def execShldEvGvIb (e : RM Gpr) (g : Gpr) (ib : Byte) (s : State) : Outcome :=
  seqInstr false (doubleShift (fun w => shldAlu (n := w)) e g (pure ib)) s

/-- SHLD Ev,Gv,CL, 0F A5 (42_logic_shift_bit.md R514). -/
def execShldEvGvCL (e : RM Gpr) (g : Gpr) (s : State) : Outcome :=
  seqInstr false (doubleShift (fun w => shldAlu (n := w)) e g (look (·.reg8 .cl))) s

/-- SHRD Ev,Gv,Ib, 0F AC (42_logic_shift_bit.md R515). -/
def execShrdEvGvIb (e : RM Gpr) (g : Gpr) (ib : Byte) (s : State) : Outcome :=
  seqInstr false (doubleShift (fun w => shrdAlu (n := w)) e g (pure ib)) s

/-- SHRD Ev,Gv,CL, 0F AD (42_logic_shift_bit.md R515). -/
def execShrdEvGvCL (e : RM Gpr) (g : Gpr) (s : State) : Outcome :=
  seqInstr false (doubleShift (fun w => shrdAlu (n := w)) e g (look (·.reg8 .cl))) s

/-- BT Ev,Gv, 0F A3 (42_logic_shift_bit.md R517). -/
def execBtEvGv (e : RM Gpr) (g : Gpr) (s : State) : Outcome :=
  seqInstr false (bitTest e (bitReg g)) s

/-- BT Ev,Ib, 0F BA /4 (42_logic_shift_bit.md R517). -/
def execBtEvIb (e : RM Gpr) (ib : Byte) (s : State) : Outcome :=
  seqInstr false (bitTest e (bitImm ib)) s

/-- BTS Ev,Gv, 0F AB (42_logic_shift_bit.md R518). -/
def execBtsEvGv (e : RM Gpr) (g : Gpr) (s : State) : Outcome :=
  seqInstr (isMem e) (bitChange setBit e (bitReg g)) s

/-- BTS Ev,Ib, 0F BA /5 (42_logic_shift_bit.md R518). -/
def execBtsEvIb (e : RM Gpr) (ib : Byte) (s : State) : Outcome :=
  seqInstr (isMem e) (bitChange setBit e (bitImm ib)) s

/-- BTR Ev,Gv, 0F B3 (42_logic_shift_bit.md R519). -/
def execBtrEvGv (e : RM Gpr) (g : Gpr) (s : State) : Outcome :=
  seqInstr (isMem e) (bitChange clearBit e (bitReg g)) s

/-- BTR Ev,Ib, 0F BA /6 (42_logic_shift_bit.md R519). -/
def execBtrEvIb (e : RM Gpr) (ib : Byte) (s : State) : Outcome :=
  seqInstr (isMem e) (bitChange clearBit e (bitImm ib)) s

/-- BTC Ev,Gv, 0F BB (42_logic_shift_bit.md R520). -/
def execBtcEvGv (e : RM Gpr) (g : Gpr) (s : State) : Outcome :=
  seqInstr (isMem e) (bitChange flipBit e (bitReg g)) s

/-- BTC Ev,Ib, 0F BA /7 (42_logic_shift_bit.md R520). -/
def execBtcEvIb (e : RM Gpr) (ib : Byte) (s : State) : Outcome :=
  seqInstr (isMem e) (bitChange flipBit e (bitImm ib)) s

/-- BSF Gv,Ev, 0F BC (42_logic_shift_bit.md R521). -/
def execBsfGvEv (g : Gpr) (e : RM Gpr) (s : State) : Outcome :=
  seqInstr false (bitScan (fun w => lowestSet (n := w)) g e) s

/-- BSR Gv,Ev, 0F BD (42_logic_shift_bit.md R522). -/
def execBsrGvEv (g : Gpr) (e : RM Gpr) (s : State) : Outcome :=
  seqInstr false (bitScan (fun w => highestSet (n := w)) g e) s

end Sys2Proof.Machine
end

