-- ==== Sys2Proof/Machine/StringIO.lean ====
section
/-! DEFINITION. String instructions, repeat prefixes, I/O and I/O protection (44_string_io.md R660 to R706). Element
widths are in bits. -/

namespace Sys2Proof.Machine

/-! I/O. -/

/-- The bit of one port in the I/O permission map at `base` in the TSS allows the access (44_string_io.md R701). -/
def portAllowed (tr : SysSeg) (base : Nat) (p : Nat) : M Bool := do
  let off := base + p / 8
  if 0xFFFF < p || tr.limit.toNat < off then pure false
  else
    let b : Byte := leVal 8 (← linRead (tr.base + BitVec.ofNat 32 off) 1 false)
    pure (!b.getLsbD (p % 8))

/-- All the ports of an access are allowed, tested in order up to the first that is not (44_string_io.md R701). -/
def portsAllowed (tr : SysSeg) (base : Nat) : List Nat → M Bool
  | [] => pure true
  | p :: ps => do
    if ← portAllowed tr base p then portsAllowed tr base ps else pure false

/-- `BitmapAllows` (44_string_io.md R701) for `n` ports from `port` on. A TR that was never loaded gives no map:
DESIGN CHOICE, log 41. -/
def bitmapAllows (port : Word) (n : Nat) : M Bool := do
  let tr ← look (·.tr)
  if !tr.valid || decide (tr.limit.toNat < 0x67) then pure false
  else
    let base := leNat (← linRead (tr.base + 0x66) 2 false)
    if tr.limit.toNat ≤ base then pure false
    else portsAllowed tr base ((List.range n).map (port.toNat + ·))

/-- `IoPermission` (44_string_io.md R700, R705). -/
def ioPermission (port : Word) (n : Nat) : M Unit := do
  if ← look fun s => s.pe && decide (s.iopl.toNat < s.cpl.toNat) then
    need (← bitmapAllows port n) raiseGP0

/-- `IoRead`: the environment's value, with its event (20_memory.md R152). -/
def ioRead (port : Word) (w : Nat) : M (BitVec w) := do
  let v ← anyBits w
  updBoth (·.event (.portRead port (w / 8) (v.setWidth 32)))
  pure v

/-- `IoWrite`: an event for the environment (20_memory.md R152). -/
def ioWrite {w : Nat} (port : Word) (v : BitVec w) : M Unit :=
  updBoth (·.event (.portWrite port (w / 8) (v.setWidth 32)))

/-- IN (44_string_io.md R670). -/
def inBody (width : M Nat) (port : M Word) : M Unit := do
  let w ← width
  let p ← port
  ioPermission p (w / 8)
  let v ← ioRead p w
  upd (·.setGprLow .eax v)

/-- OUT (44_string_io.md R671). -/
def outBody (width : M Nat) (port : M Word) : M Unit := do
  let w ← width
  let p ← port
  ioPermission p (w / 8)
  ioWrite p (← look (·.gprLow w .eax))

/-! String elements. -/

/-- SI or ESI as an offset (44_string_io.md R660). -/
def State.srcOff (s : State) : Dword := stackOff s.a32 (s.gpr .esi)

/-- DI or EDI as an offset (44_string_io.md R660). -/
def State.dstOff (s : State) : Dword := stackOff s.a32 (s.gpr .edi)

/-- `Step` of an index register by the bytes of an element (44_string_io.md R660). -/
def State.stepIndex (s : State) (r : Gpr) (w : Nat) : State :=
  let d : Dword := BitVec.ofNat 32 (w / 8)
  let v := if s.df then s.gpr r - d else s.gpr r + d
  if s.a32 then s.setGpr r v else s.setGprLow r (v.setWidth 16)

/-- Read the source element (44_string_io.md R660). -/
def readSource (w : Nat) : M (BitVec w) := do memRead (← look (·.dataSeg)) (← look (·.srcOff)) (w / 8) w

/-- Read the destination element, through ES (44_string_io.md R660). -/
def readDest (w : Nat) : M (BitVec w) := do memRead .es (← look (·.dstOff)) (w / 8) w

/-- One element of MOVS (44_string_io.md R661). -/
def moveElement (w : Nat) : M Unit := do
  let v ← readSource w
  memWrite .es (← look (·.dstOff)) (w / 8) v
  upd fun s => (s.stepIndex .esi w).stepIndex .edi w

/-- One element of CMPS (44_string_io.md R662). -/
def compareElement (w : Nat) : M Unit := do
  let a ← readSource w
  let b ← readDest w
  upd fun s => ((s.setFlags (subFlags a b false).2).stepIndex .esi w).stepIndex .edi w

/-- One element of SCAS (44_string_io.md R663). -/
def scanElement (w : Nat) : M Unit := do
  let b ← readDest w
  upd fun s => (s.setFlags (subFlags (s.gprLow w .eax) b false).2).stepIndex .edi w

/-- One element of LODS (44_string_io.md R664). -/
def loadElement (w : Nat) : M Unit := do
  let v ← readSource w
  upd fun s => (s.setGprLow .eax v).stepIndex .esi w

/-- One element of STOS (44_string_io.md R665). -/
def storeElement (w : Nat) : M Unit := do
  memWrite .es (← look (·.dstOff)) (w / 8) (← look (·.gprLow w .eax))
  upd (·.stepIndex .edi w)

/-- One element of INS: the destination is checked before the port is read (44_string_io.md R672). -/
def inElement (w : Nat) : M Unit := do
  let port ← look (·.gprLow 16 .edx)
  ioPermission port (w / 8)
  let plan ← memPlan .es (← look (·.dstOff)) (w / 8) true
  let v ← ioRead port w
  writePhys plan (leBytes (w / 8) v)
  upd (·.stepIndex .edi w)

/-- One element of OUTS (44_string_io.md R673). -/
def outElement (w : Nat) : M Unit := do
  let port ← look (·.gprLow 16 .edx)
  ioPermission port (w / 8)
  let v ← readSource w
  ioWrite port v
  upd (·.stepIndex .esi w)

/-! Repetition. -/

/-- `Terminate` of MOVS, LODS, STOS, INS and OUTS (44_string_io.md R666). -/
def never : RepKind → State → Bool := fun _ _ => false

/-- `Terminate` of CMPS and SCAS (44_string_io.md R667, R668). -/
def untilZf : RepKind → State → Bool
  | .rep, s => !s.zf
  | .repne, s => s.zf

/-- A string instruction: one element, and EIP moves on unless a repetition has more to do (44_string_io.md R660,
R666). -/
def repeated (stop : RepKind → State → Bool) (width : M Nat) (element : Nat → M Unit) : M Unit := do
  let w ← width
  match ← look (·.ctx.rep) with
  | none =>
    element w
    upd (·.advance)
  | some k =>
    if ← look (·.count == 0) then upd (·.advance)
    else
      element w
      upd (·.decCount)
      if ← look fun s => s.count == 0 || stop k s then upd (·.advance)

/-! The instructions. -/

/-- MOVSB, A4 (44_string_io.md R661). -/
def execMovsb (s : State) : Outcome :=
  instr false (repeated never (pure 8) moveElement) s

/-- MOVSW_MOVSD, A5 (44_string_io.md R661). -/
def execMovsv (s : State) : Outcome :=
  instr false (repeated never (look (·.osz)) moveElement) s

/-- STOSB, AA (44_string_io.md R665). -/
def execStosb (s : State) : Outcome :=
  instr false (repeated never (pure 8) storeElement) s

/-- STOSW_STOSD, AB (44_string_io.md R665). -/
def execStosv (s : State) : Outcome :=
  instr false (repeated never (look (·.osz)) storeElement) s

/-- LODSB, AC (44_string_io.md R664). -/
def execLodsb (s : State) : Outcome :=
  instr false (repeated never (pure 8) loadElement) s

/-- LODSW_LODSD, AD (44_string_io.md R664). -/
def execLodsv (s : State) : Outcome :=
  instr false (repeated never (look (·.osz)) loadElement) s

/-- INSB, 6C (44_string_io.md R672). -/
def execInsb (s : State) : Outcome :=
  instr false (repeated never (pure 8) inElement) s

/-- INSW_INSD, 6D (44_string_io.md R672). -/
def execInsv (s : State) : Outcome :=
  instr false (repeated never (look (·.osz)) inElement) s

/-- OUTSB, 6E (44_string_io.md R673). -/
def execOutsb (s : State) : Outcome :=
  instr false (repeated never (pure 8) outElement) s

/-- OUTSW_OUTSD, 6F (44_string_io.md R673). -/
def execOutsv (s : State) : Outcome :=
  instr false (repeated never (look (·.osz)) outElement) s

/-- CMPSB, A6 (44_string_io.md R662). -/
def execCmpsb (s : State) : Outcome :=
  instr false (repeated untilZf (pure 8) compareElement) s

/-- CMPSW_CMPSD, A7 (44_string_io.md R662). -/
def execCmpsv (s : State) : Outcome :=
  instr false (repeated untilZf (look (·.osz)) compareElement) s

/-- SCASB, AE (44_string_io.md R663). -/
def execScasb (s : State) : Outcome :=
  instr false (repeated untilZf (pure 8) scanElement) s

/-- SCASW_SCASD, AF (44_string_io.md R663). -/
def execScasv (s : State) : Outcome :=
  instr false (repeated untilZf (look (·.osz)) scanElement) s

/-- IN AL,Ib, E4 (44_string_io.md R670). -/
def execInALIb (ib : Byte) (s : State) : Outcome :=
  seqInstr false (inBody (pure 8) (pure (ib.setWidth 16))) s

/-- IN eAX,Ib, E5 (44_string_io.md R670). -/
def execInEAXIb (ib : Byte) (s : State) : Outcome :=
  seqInstr false (inBody (look (·.osz)) (pure (ib.setWidth 16))) s

/-- IN AL,DX, EC (44_string_io.md R670). -/
def execInALDX (s : State) : Outcome :=
  seqInstr false (inBody (pure 8) (look (·.gprLow 16 .edx))) s

/-- IN eAX,DX, ED (44_string_io.md R670). -/
def execInEAXDX (s : State) : Outcome :=
  seqInstr false (inBody (look (·.osz)) (look (·.gprLow 16 .edx))) s

/-- OUT Ib,AL, E6 (44_string_io.md R671). -/
def execOutIbAL (ib : Byte) (s : State) : Outcome :=
  seqInstr false (outBody (pure 8) (pure (ib.setWidth 16))) s

/-- OUT Ib,eAX, E7 (44_string_io.md R671). -/
def execOutIbEAX (ib : Byte) (s : State) : Outcome :=
  seqInstr false (outBody (look (·.osz)) (pure (ib.setWidth 16))) s

/-- OUT DX,AL, EE (44_string_io.md R671). -/
def execOutDXAL (s : State) : Outcome :=
  seqInstr false (outBody (pure 8) (look (·.gprLow 16 .edx))) s

/-- OUT DX,eAX, EF (44_string_io.md R671). -/
def execOutDXEAX (s : State) : Outcome :=
  seqInstr false (outBody (look (·.osz)) (look (·.gprLow 16 .edx))) s

end Sys2Proof.Machine
end

