-- ==== Sys2Proof/Machine/Dispatch.lean ====
section
/-! DEFINITION. The meaning of every instruction and prefix: one arm per constructor of `Instr`. -/

namespace Sys2Proof.Machine

/-- Execute one instruction, or take note of one prefix. -/
def exec (i : Instr) (s : State) : Host.Outcome State Fault Refusal :=
  match i with
  | .addEbGb e g => Sys2Proof.Machine.execAddEbGb e g s
  | .addEvGv e g => Sys2Proof.Machine.execAddEvGv e g s
  | .addGbEb g e => Sys2Proof.Machine.execAddGbEb g e s
  | .addGvEv g e => Sys2Proof.Machine.execAddGvEv g e s
  | .addALIb ib => Sys2Proof.Machine.execAddALIb ib s
  | .addEAXIv iv => Sys2Proof.Machine.execAddEAXIv iv s
  | .orEbGb e g => Sys2Proof.Machine.execOrEbGb e g s
  | .orEvGv e g => Sys2Proof.Machine.execOrEvGv e g s
  | .orGbEb g e => Sys2Proof.Machine.execOrGbEb g e s
  | .orGvEv g e => Sys2Proof.Machine.execOrGvEv g e s
  | .orALIb ib => Sys2Proof.Machine.execOrALIb ib s
  | .orEAXIv iv => Sys2Proof.Machine.execOrEAXIv iv s
  | .adcEbGb e g => Sys2Proof.Machine.execAdcEbGb e g s
  | .adcEvGv e g => Sys2Proof.Machine.execAdcEvGv e g s
  | .adcGbEb g e => Sys2Proof.Machine.execAdcGbEb g e s
  | .adcGvEv g e => Sys2Proof.Machine.execAdcGvEv g e s
  | .adcALIb ib => Sys2Proof.Machine.execAdcALIb ib s
  | .adcEAXIv iv => Sys2Proof.Machine.execAdcEAXIv iv s
  | .sbbEbGb e g => Sys2Proof.Machine.execSbbEbGb e g s
  | .sbbEvGv e g => Sys2Proof.Machine.execSbbEvGv e g s
  | .sbbGbEb g e => Sys2Proof.Machine.execSbbGbEb g e s
  | .sbbGvEv g e => Sys2Proof.Machine.execSbbGvEv g e s
  | .sbbALIb ib => Sys2Proof.Machine.execSbbALIb ib s
  | .sbbEAXIv iv => Sys2Proof.Machine.execSbbEAXIv iv s
  | .andEbGb e g => Sys2Proof.Machine.execAndEbGb e g s
  | .andEvGv e g => Sys2Proof.Machine.execAndEvGv e g s
  | .andGbEb g e => Sys2Proof.Machine.execAndGbEb g e s
  | .andGvEv g e => Sys2Proof.Machine.execAndGvEv g e s
  | .andALIb ib => Sys2Proof.Machine.execAndALIb ib s
  | .andEAXIv iv => Sys2Proof.Machine.execAndEAXIv iv s
  | .subEbGb e g => Sys2Proof.Machine.execSubEbGb e g s
  | .subEvGv e g => Sys2Proof.Machine.execSubEvGv e g s
  | .subGbEb g e => Sys2Proof.Machine.execSubGbEb g e s
  | .subGvEv g e => Sys2Proof.Machine.execSubGvEv g e s
  | .subALIb ib => Sys2Proof.Machine.execSubALIb ib s
  | .subEAXIv iv => Sys2Proof.Machine.execSubEAXIv iv s
  | .xorEbGb e g => Sys2Proof.Machine.execXorEbGb e g s
  | .xorEvGv e g => Sys2Proof.Machine.execXorEvGv e g s
  | .xorGbEb g e => Sys2Proof.Machine.execXorGbEb g e s
  | .xorGvEv g e => Sys2Proof.Machine.execXorGvEv g e s
  | .xorALIb ib => Sys2Proof.Machine.execXorALIb ib s
  | .xorEAXIv iv => Sys2Proof.Machine.execXorEAXIv iv s
  | .cmpEbGb e g => Sys2Proof.Machine.execCmpEbGb e g s
  | .cmpEvGv e g => Sys2Proof.Machine.execCmpEvGv e g s
  | .cmpGbEb g e => Sys2Proof.Machine.execCmpGbEb g e s
  | .cmpGvEv g e => Sys2Proof.Machine.execCmpGvEv g e s
  | .cmpALIb ib => Sys2Proof.Machine.execCmpALIb ib s
  | .cmpEAXIv iv => Sys2Proof.Machine.execCmpEAXIv iv s
  | .incRv r => Sys2Proof.Machine.execIncRv r s
  | .decRv r => Sys2Proof.Machine.execDecRv r s
  | .pushRv r => Sys2Proof.Machine.execPushRv r s
  | .popRv r => Sys2Proof.Machine.execPopRv r s
  | .boundGvMa g m => Sys2Proof.Machine.execBoundGvMa g m s
  | .arplEwGw e g => Sys2Proof.Machine.execArplEwGw e g s
  | .pushIv iv => Sys2Proof.Machine.execPushIv iv s
  | .imulGvEvIv g e iv => Sys2Proof.Machine.execImulGvEvIv g e iv s
  | .pushIb ib => Sys2Proof.Machine.execPushIb ib s
  | .imulGvEvIb g e ib => Sys2Proof.Machine.execImulGvEvIb g e ib s
  | .jccJb cc jb => Sys2Proof.Machine.execJccJb cc jb s
  | .addEbIb e ib => Sys2Proof.Machine.execAddEbIb e ib s
  | .addEvIv e iv => Sys2Proof.Machine.execAddEvIv e iv s
  | .addEvIb e ib => Sys2Proof.Machine.execAddEvIb e ib s
  | .orEbIb e ib => Sys2Proof.Machine.execOrEbIb e ib s
  | .orEvIv e iv => Sys2Proof.Machine.execOrEvIv e iv s
  | .orEvIb e ib => Sys2Proof.Machine.execOrEvIb e ib s
  | .adcEbIb e ib => Sys2Proof.Machine.execAdcEbIb e ib s
  | .adcEvIv e iv => Sys2Proof.Machine.execAdcEvIv e iv s
  | .adcEvIb e ib => Sys2Proof.Machine.execAdcEvIb e ib s
  | .sbbEbIb e ib => Sys2Proof.Machine.execSbbEbIb e ib s
  | .sbbEvIv e iv => Sys2Proof.Machine.execSbbEvIv e iv s
  | .sbbEvIb e ib => Sys2Proof.Machine.execSbbEvIb e ib s
  | .andEbIb e ib => Sys2Proof.Machine.execAndEbIb e ib s
  | .andEvIv e iv => Sys2Proof.Machine.execAndEvIv e iv s
  | .andEvIb e ib => Sys2Proof.Machine.execAndEvIb e ib s
  | .subEbIb e ib => Sys2Proof.Machine.execSubEbIb e ib s
  | .subEvIv e iv => Sys2Proof.Machine.execSubEvIv e iv s
  | .subEvIb e ib => Sys2Proof.Machine.execSubEvIb e ib s
  | .xorEbIb e ib => Sys2Proof.Machine.execXorEbIb e ib s
  | .xorEvIv e iv => Sys2Proof.Machine.execXorEvIv e iv s
  | .xorEvIb e ib => Sys2Proof.Machine.execXorEvIb e ib s
  | .cmpEbIb e ib => Sys2Proof.Machine.execCmpEbIb e ib s
  | .cmpEvIv e iv => Sys2Proof.Machine.execCmpEvIv e iv s
  | .cmpEvIb e ib => Sys2Proof.Machine.execCmpEvIb e ib s
  | .testEbGb e g => Sys2Proof.Machine.execTestEbGb e g s
  | .testEvGv e g => Sys2Proof.Machine.execTestEvGv e g s
  | .xchgEbGb e g => Sys2Proof.Machine.execXchgEbGb e g s
  | .xchgEvGv e g => Sys2Proof.Machine.execXchgEvGv e g s
  | .movEbGb e g => Sys2Proof.Machine.execMovEbGb e g s
  | .movEvGv e g => Sys2Proof.Machine.execMovEvGv e g s
  | .movGbEb g e => Sys2Proof.Machine.execMovGbEb g e s
  | .movGvEv g e => Sys2Proof.Machine.execMovGvEv g e s
  | .movEwSw e sr => Sys2Proof.Machine.execMovEwSw e sr s
  | .leaGvM g m => Sys2Proof.Machine.execLeaGvM g m s
  | .movSwEw sr e => Sys2Proof.Machine.execMovSwEw sr e s
  | .popEv e => Sys2Proof.Machine.execPopEv e s
  | .xchgEAXRv r => Sys2Proof.Machine.execXchgEAXRv r s
  | .callAp off sel => Sys2Proof.Machine.execCallAp off sel s
  | .movALOb o => Sys2Proof.Machine.execMovALOb o s
  | .movEAXOv o => Sys2Proof.Machine.execMovEAXOv o s
  | .movObAL o => Sys2Proof.Machine.execMovObAL o s
  | .movOvEAX o => Sys2Proof.Machine.execMovOvEAX o s
  | .testALIb ib => Sys2Proof.Machine.execTestALIb ib s
  | .testEAXIv iv => Sys2Proof.Machine.execTestEAXIv iv s
  | .movRbIb r ib => Sys2Proof.Machine.execMovRbIb r ib s
  | .movRvIv r iv => Sys2Proof.Machine.execMovRvIv r iv s
  | .rolEbIb e ib => Sys2Proof.Machine.execRolEbIb e ib s
  | .rolEvIb e ib => Sys2Proof.Machine.execRolEvIb e ib s
  | .rorEbIb e ib => Sys2Proof.Machine.execRorEbIb e ib s
  | .rorEvIb e ib => Sys2Proof.Machine.execRorEvIb e ib s
  | .rclEbIb e ib => Sys2Proof.Machine.execRclEbIb e ib s
  | .rclEvIb e ib => Sys2Proof.Machine.execRclEvIb e ib s
  | .rcrEbIb e ib => Sys2Proof.Machine.execRcrEbIb e ib s
  | .rcrEvIb e ib => Sys2Proof.Machine.execRcrEvIb e ib s
  | .shlEbIb e ib => Sys2Proof.Machine.execShlEbIb e ib s
  | .shlEvIb e ib => Sys2Proof.Machine.execShlEvIb e ib s
  | .shrEbIb e ib => Sys2Proof.Machine.execShrEbIb e ib s
  | .shrEvIb e ib => Sys2Proof.Machine.execShrEvIb e ib s
  | .sarEbIb e ib => Sys2Proof.Machine.execSarEbIb e ib s
  | .sarEvIb e ib => Sys2Proof.Machine.execSarEvIb e ib s
  | .retIw iw => Sys2Proof.Machine.execRetIw iw s
  | .lesGvMp g m => Sys2Proof.Machine.execLesGvMp g m s
  | .ldsGvMp g m => Sys2Proof.Machine.execLdsGvMp g m s
  | .movEbIb e ib => Sys2Proof.Machine.execMovEbIb e ib s
  | .movEvIv e iv => Sys2Proof.Machine.execMovEvIv e iv s
  | .enterIwIb iw ib => Sys2Proof.Machine.execEnterIwIb iw ib s
  | .retfIw iw => Sys2Proof.Machine.execRetfIw iw s
  | .intIb ib => Sys2Proof.Machine.execIntIb ib s
  | .rolEb1 e => Sys2Proof.Machine.execRolEb1 e s
  | .rolEv1 e => Sys2Proof.Machine.execRolEv1 e s
  | .rolEbCL e => Sys2Proof.Machine.execRolEbCL e s
  | .rolEvCL e => Sys2Proof.Machine.execRolEvCL e s
  | .rorEb1 e => Sys2Proof.Machine.execRorEb1 e s
  | .rorEv1 e => Sys2Proof.Machine.execRorEv1 e s
  | .rorEbCL e => Sys2Proof.Machine.execRorEbCL e s
  | .rorEvCL e => Sys2Proof.Machine.execRorEvCL e s
  | .rclEb1 e => Sys2Proof.Machine.execRclEb1 e s
  | .rclEv1 e => Sys2Proof.Machine.execRclEv1 e s
  | .rclEbCL e => Sys2Proof.Machine.execRclEbCL e s
  | .rclEvCL e => Sys2Proof.Machine.execRclEvCL e s
  | .rcrEb1 e => Sys2Proof.Machine.execRcrEb1 e s
  | .rcrEv1 e => Sys2Proof.Machine.execRcrEv1 e s
  | .rcrEbCL e => Sys2Proof.Machine.execRcrEbCL e s
  | .rcrEvCL e => Sys2Proof.Machine.execRcrEvCL e s
  | .shlEb1 e => Sys2Proof.Machine.execShlEb1 e s
  | .shlEv1 e => Sys2Proof.Machine.execShlEv1 e s
  | .shlEbCL e => Sys2Proof.Machine.execShlEbCL e s
  | .shlEvCL e => Sys2Proof.Machine.execShlEvCL e s
  | .shrEb1 e => Sys2Proof.Machine.execShrEb1 e s
  | .shrEv1 e => Sys2Proof.Machine.execShrEv1 e s
  | .shrEbCL e => Sys2Proof.Machine.execShrEbCL e s
  | .shrEvCL e => Sys2Proof.Machine.execShrEvCL e s
  | .sarEb1 e => Sys2Proof.Machine.execSarEb1 e s
  | .sarEv1 e => Sys2Proof.Machine.execSarEv1 e s
  | .sarEbCL e => Sys2Proof.Machine.execSarEbCL e s
  | .sarEvCL e => Sys2Proof.Machine.execSarEvCL e s
  | .aamIb ib => Sys2Proof.Machine.execAamIb ib s
  | .aadIb ib => Sys2Proof.Machine.execAadIb ib s
  | .esc0 op e => Sys2Proof.Machine.execEsc0 op e s
  | .esc1 op e => Sys2Proof.Machine.execEsc1 op e s
  | .esc2 op e => Sys2Proof.Machine.execEsc2 op e s
  | .esc3 op e => Sys2Proof.Machine.execEsc3 op e s
  | .esc4 op e => Sys2Proof.Machine.execEsc4 op e s
  | .esc5 op e => Sys2Proof.Machine.execEsc5 op e s
  | .esc6 op e => Sys2Proof.Machine.execEsc6 op e s
  | .esc7 op e => Sys2Proof.Machine.execEsc7 op e s
  | .loopneJb jb => Sys2Proof.Machine.execLoopneJb jb s
  | .loopeJb jb => Sys2Proof.Machine.execLoopeJb jb s
  | .loopJb jb => Sys2Proof.Machine.execLoopJb jb s
  | .jcxzJb jb => Sys2Proof.Machine.execJcxzJb jb s
  | .inALIb ib => Sys2Proof.Machine.execInALIb ib s
  | .inEAXIb ib => Sys2Proof.Machine.execInEAXIb ib s
  | .outIbAL ib => Sys2Proof.Machine.execOutIbAL ib s
  | .outIbEAX ib => Sys2Proof.Machine.execOutIbEAX ib s
  | .callJv jv => Sys2Proof.Machine.execCallJv jv s
  | .jmpJv jv => Sys2Proof.Machine.execJmpJv jv s
  | .jmpAp off sel => Sys2Proof.Machine.execJmpAp off sel s
  | .jmpJb jb => Sys2Proof.Machine.execJmpJb jb s
  | .testEbIb e ib => Sys2Proof.Machine.execTestEbIb e ib s
  | .notEb e => Sys2Proof.Machine.execNotEb e s
  | .negEb e => Sys2Proof.Machine.execNegEb e s
  | .mulEb e => Sys2Proof.Machine.execMulEb e s
  | .imulEb e => Sys2Proof.Machine.execImulEb e s
  | .divEb e => Sys2Proof.Machine.execDivEb e s
  | .idivEb e => Sys2Proof.Machine.execIdivEb e s
  | .testEvIv e iv => Sys2Proof.Machine.execTestEvIv e iv s
  | .notEv e => Sys2Proof.Machine.execNotEv e s
  | .negEv e => Sys2Proof.Machine.execNegEv e s
  | .mulEv e => Sys2Proof.Machine.execMulEv e s
  | .imulEv e => Sys2Proof.Machine.execImulEv e s
  | .divEv e => Sys2Proof.Machine.execDivEv e s
  | .idivEv e => Sys2Proof.Machine.execIdivEv e s
  | .incEb e => Sys2Proof.Machine.execIncEb e s
  | .decEb e => Sys2Proof.Machine.execDecEb e s
  | .incEv e => Sys2Proof.Machine.execIncEv e s
  | .decEv e => Sys2Proof.Machine.execDecEv e s
  | .callEv e => Sys2Proof.Machine.execCallEv e s
  | .callEp m => Sys2Proof.Machine.execCallEp m s
  | .jmpEv e => Sys2Proof.Machine.execJmpEv e s
  | .jmpEp m => Sys2Proof.Machine.execJmpEp m s
  | .pushEv e => Sys2Proof.Machine.execPushEv e s
  | .sldtEw e => Sys2Proof.Machine.execSldtEw e s
  | .strEw e => Sys2Proof.Machine.execStrEw e s
  | .lldtEw e => Sys2Proof.Machine.execLldtEw e s
  | .ltrEw e => Sys2Proof.Machine.execLtrEw e s
  | .verrEw e => Sys2Proof.Machine.execVerrEw e s
  | .verwEw e => Sys2Proof.Machine.execVerwEw e s
  | .sgdtMs m => Sys2Proof.Machine.execSgdtMs m s
  | .sidtMs m => Sys2Proof.Machine.execSidtMs m s
  | .lgdtMs m => Sys2Proof.Machine.execLgdtMs m s
  | .lidtMs m => Sys2Proof.Machine.execLidtMs m s
  | .smswEw e => Sys2Proof.Machine.execSmswEw e s
  | .lmswEw e => Sys2Proof.Machine.execLmswEw e s
  | .larGvEw g e => Sys2Proof.Machine.execLarGvEw g e s
  | .lslGvEw g e => Sys2Proof.Machine.execLslGvEw g e s
  | .movRdCd r n => Sys2Proof.Machine.execMovRdCd r n s
  | .movRdDd r n => Sys2Proof.Machine.execMovRdDd r n s
  | .movCdRd n r => Sys2Proof.Machine.execMovCdRd n r s
  | .movDdRd n r => Sys2Proof.Machine.execMovDdRd n r s
  | .movRdTd r n => Sys2Proof.Machine.execMovRdTd r n s
  | .movTdRd n r => Sys2Proof.Machine.execMovTdRd n r s
  | .jccJv cc jv => Sys2Proof.Machine.execJccJv cc jv s
  | .setccEb cc e => Sys2Proof.Machine.execSetccEb cc e s
  | .btEvGv e g => Sys2Proof.Machine.execBtEvGv e g s
  | .shldEvGvIb e g ib => Sys2Proof.Machine.execShldEvGvIb e g ib s
  | .shldEvGvCL e g => Sys2Proof.Machine.execShldEvGvCL e g s
  | .btsEvGv e g => Sys2Proof.Machine.execBtsEvGv e g s
  | .shrdEvGvIb e g ib => Sys2Proof.Machine.execShrdEvGvIb e g ib s
  | .shrdEvGvCL e g => Sys2Proof.Machine.execShrdEvGvCL e g s
  | .imulGvEv g e => Sys2Proof.Machine.execImulGvEv g e s
  | .lssGvMp g m => Sys2Proof.Machine.execLssGvMp g m s
  | .btrEvGv e g => Sys2Proof.Machine.execBtrEvGv e g s
  | .lfsGvMp g m => Sys2Proof.Machine.execLfsGvMp g m s
  | .lgsGvMp g m => Sys2Proof.Machine.execLgsGvMp g m s
  | .movzxGvEb g e => Sys2Proof.Machine.execMovzxGvEb g e s
  | .movzxGvEw g e => Sys2Proof.Machine.execMovzxGvEw g e s
  | .btEvIb e ib => Sys2Proof.Machine.execBtEvIb e ib s
  | .btsEvIb e ib => Sys2Proof.Machine.execBtsEvIb e ib s
  | .btrEvIb e ib => Sys2Proof.Machine.execBtrEvIb e ib s
  | .btcEvIb e ib => Sys2Proof.Machine.execBtcEvIb e ib s
  | .btcEvGv e g => Sys2Proof.Machine.execBtcEvGv e g s
  | .bsfGvEv g e => Sys2Proof.Machine.execBsfGvEv g e s
  | .bsrGvEv g e => Sys2Proof.Machine.execBsrGvEv g e s
  | .movsxGvEb g e => Sys2Proof.Machine.execMovsxGvEb g e s
  | .movsxGvEw g e => Sys2Proof.Machine.execMovsxGvEw g e s
  | .pushES => Sys2Proof.Machine.execPushES s
  | .popES => Sys2Proof.Machine.execPopES s
  | .pushCS => Sys2Proof.Machine.execPushCS s
  | .pushSS => Sys2Proof.Machine.execPushSS s
  | .popSS => Sys2Proof.Machine.execPopSS s
  | .pushDS => Sys2Proof.Machine.execPushDS s
  | .popDS => Sys2Proof.Machine.execPopDS s
  | .pfxES => Sys2Proof.Machine.execPfxES s
  | .daa => Sys2Proof.Machine.execDaa s
  | .pfxCS => Sys2Proof.Machine.execPfxCS s
  | .das => Sys2Proof.Machine.execDas s
  | .pfxSS => Sys2Proof.Machine.execPfxSS s
  | .aaa => Sys2Proof.Machine.execAaa s
  | .pfxDS => Sys2Proof.Machine.execPfxDS s
  | .aas => Sys2Proof.Machine.execAas s
  | .pusha => Sys2Proof.Machine.execPusha s
  | .popa => Sys2Proof.Machine.execPopa s
  | .pfxFS => Sys2Proof.Machine.execPfxFS s
  | .pfxGS => Sys2Proof.Machine.execPfxGS s
  | .pfxOpSize => Sys2Proof.Machine.execPfxOpSize s
  | .pfxAddrSize => Sys2Proof.Machine.execPfxAddrSize s
  | .insb => Sys2Proof.Machine.execInsb s
  | .insv => Sys2Proof.Machine.execInsv s
  | .outsb => Sys2Proof.Machine.execOutsb s
  | .outsv => Sys2Proof.Machine.execOutsv s
  | .nop => Sys2Proof.Machine.execNop s
  | .cbw => Sys2Proof.Machine.execCbw s
  | .cwd => Sys2Proof.Machine.execCwd s
  | .wait => Sys2Proof.Machine.execWait s
  | .pushf => Sys2Proof.Machine.execPushf s
  | .popf => Sys2Proof.Machine.execPopf s
  | .sahf => Sys2Proof.Machine.execSahf s
  | .lahf => Sys2Proof.Machine.execLahf s
  | .movsb => Sys2Proof.Machine.execMovsb s
  | .movsv => Sys2Proof.Machine.execMovsv s
  | .cmpsb => Sys2Proof.Machine.execCmpsb s
  | .cmpsv => Sys2Proof.Machine.execCmpsv s
  | .stosb => Sys2Proof.Machine.execStosb s
  | .stosv => Sys2Proof.Machine.execStosv s
  | .lodsb => Sys2Proof.Machine.execLodsb s
  | .lodsv => Sys2Proof.Machine.execLodsv s
  | .scasb => Sys2Proof.Machine.execScasb s
  | .scasv => Sys2Proof.Machine.execScasv s
  | .ret => Sys2Proof.Machine.execRet s
  | .leave => Sys2Proof.Machine.execLeave s
  | .retf => Sys2Proof.Machine.execRetf s
  | .int3 => Sys2Proof.Machine.execInt3 s
  | .into => Sys2Proof.Machine.execInto s
  | .iret => Sys2Proof.Machine.execIret s
  | .xlat => Sys2Proof.Machine.execXlat s
  | .inALDX => Sys2Proof.Machine.execInALDX s
  | .inEAXDX => Sys2Proof.Machine.execInEAXDX s
  | .outDXAL => Sys2Proof.Machine.execOutDXAL s
  | .outDXEAX => Sys2Proof.Machine.execOutDXEAX s
  | .pfxLock => Sys2Proof.Machine.execPfxLock s
  | .pfxRepne => Sys2Proof.Machine.execPfxRepne s
  | .pfxRep => Sys2Proof.Machine.execPfxRep s
  | .hlt => Sys2Proof.Machine.execHlt s
  | .cmc => Sys2Proof.Machine.execCmc s
  | .clc => Sys2Proof.Machine.execClc s
  | .stc => Sys2Proof.Machine.execStc s
  | .cli => Sys2Proof.Machine.execCli s
  | .sti => Sys2Proof.Machine.execSti s
  | .cld => Sys2Proof.Machine.execCld s
  | .std => Sys2Proof.Machine.execStd s
  | .clts => Sys2Proof.Machine.execClts s
  | .pushFS => Sys2Proof.Machine.execPushFS s
  | .popFS => Sys2Proof.Machine.execPopFS s
  | .pushGS => Sys2Proof.Machine.execPushGS s
  | .popGS => Sys2Proof.Machine.execPopGS s

end Sys2Proof.Machine
end

