-- ==== Sys2Proof/Machine/Step.lean ====
section
/-! DEFINITION. One step of the machine: a boundary and what follows it (60_exceptions.md R915). -/

namespace Sys2Proof.Machine

/-- One step: RESET, or one event taken, or one instruction, or nothing while halted or shut down. -/
def step (s : State) : Host.Outcome State Fault Refusal := boundary exec s

/-- The state with the instruction whose bits are `w` (a row of `nbits` bits of spec/opcode_table.json, the bits above
it zero) stored at CS:EIP (logs 10 and 14). -/
def State.withFetchWord (s : State) (nbits w : Nat) : State := s.storeCode 0 (tableBytes nbits w)

end Sys2Proof.Machine
end

