-- ==== Sys2Proof/Safety.lean ====
section
/-! DEFINITION. The terms in which statements about the machine are made: the invariants of a state, when an operand can
be reached without an exception, what it holds and what writing it leaves, and the families of instructions of one
shape. Operands are described with paging off (20_memory.md R220); translation has statements of its own. -/

namespace Sys2Proof.Machine

/-! ## Invariants -/

/-- The bits of EFLAGS that no state of this model has other than as R55 fixes them, and VM, which stays 0
(10_state.md R55, R63). -/
def State.flagsLegal (s : State) : Bool := s.eflags &&& 0xFFFE802A == 2

/-- CR0: PG only with PE, and the bits the spec leaves undefined at the model's 0 (10_state.md R86, log 1). -/
def State.cr0Legal (s : State) : Bool := (!s.pg || s.pe) && s.cr0 &&& 0x7FFFFFE0 == 0

/-- No breakpoint is enabled and GD is 0 (10_state.md R98, 92_eei_decisions.md D4). -/
def State.noBreakpoint (s : State) : Bool := s.dr7 &&& 0x20FF == 0

/-- What every step keeps: canonical memory, legal EFLAGS, CR0 and DR7, and 32 TLB entries (10_state.md R105). -/
def State.Inv (s : State) : Prop :=
  Memory.wf s.mem = true ∧ s.flagsLegal = true ∧ s.cr0Legal = true ∧ s.noBreakpoint = true ∧ s.tlb.length = 32

/-- In real-address mode the privilege level is 0 (10_state.md R73, R130). -/
def State.levelLegal (s : State) : Prop := s.pe = false → s.cpl = 0

/-! ## Running a computation -/

/-- The working state in which the meaning of an instruction starts. -/
def Tx.start (s : State) : Tx := { cur := s, base := s, ext := false }

/-- The state after an instruction that goes on to the next one, `t` being what its operation left
(10_state.md R51, R62). -/
def State.finish (s t : State) : State := complete s t.advance

/-- `k` free values drawn (log 6). -/
def State.drawn (s : State) (k : Nat) : State := { s with freeCtr := s.freeCtr + k }

/-- The free value drawn after `k` others (log 6). -/
def State.any (s : State) (k : Nat) : Dword := Config.freeValue (s.freeCtr + k)

/-! ## Flags -/

/-- The low eight bits hold an even number of ones: what PF says (10_state.md R55). -/
def evenOnes {n : Nat} (r : BitVec n) : Bool := ((List.range 8).countP fun i => r.getLsbD i) % 2 == 0

/-- ZF, SF and PF describe the result `r`: zero, negative, even parity (41_arithmetic.md R450). -/
def Flags.describes {n : Nat} (f : Flags) (r : BitVec n) : Prop :=
  (f.zf = true ↔ r.toNat = 0) ∧ (f.sf = true ↔ r.toInt < 0) ∧ f.pf = evenOnes r

/-! ## Memory operands, paging off -/

/-- The physical addresses of `n` bytes at `off` in segment `r` while paging is off (20_memory.md R154, R220). -/
def State.addrs (s : State) (r : Sreg) (off : Dword) (n : Nat) : List Dword := addrsFrom ((s.seg r).base + off) n

/-- The `n` bytes at `off` in segment `r` can be read, or written, without an exception: paging is off, the checks of
20_memory.md R200 pass, and the bytes are RAM. -/
def State.reachable (s : State) (r : Sreg) (off : Dword) (n : Nat) (write : Bool) : Bool :=
  !s.pg && (s.seg r).valid && ((s.seg r).allows write || (r == .cs && !s.pe)) && (s.seg r).inLimit off n &&
    (s.addrs r off n).all fun pa => s.kindAt pa.toNat == .ram

/-- The value of `w` bits that the bytes at `pas` hold (20_memory.md R141). -/
def State.valueAt (s : State) (w : Nat) (pas : List Dword) : BitVec w := leVal w (pas.map s.byteAt)

/-- The value at `off` in segment `r`, `n` bytes. -/
def State.load (s : State) (r : Sreg) (off : Dword) (n w : Nat) : BitVec w := s.valueAt w (s.addrs r off n)

/-- The state after the `n` low bytes of `v` are stored at `off` in segment `r`. -/
def State.store (s : State) (r : Sreg) (off : Dword) (n : Nat) {w : Nat} (v : BitVec w) : State :=
  s.storeBytes (s.addrs r off n) (leBytes n v)

/-! ## Register-or-memory operands -/

/-- A byte operand can be reached. -/
def State.ok8 (s : State) (e : RM Reg8) (write : Bool) : Bool :=
  match e with
  | .reg _ => true
  | .mem m => s.reachable (s.effSeg m) (s.effOff m) 1 write

/-- The value of a byte operand. -/
def State.get8 (s : State) : RM Reg8 → Byte
  | .reg r => s.reg8 r
  | .mem m => s.load (s.effSeg m) (s.effOff m) 1 8

/-- The state after a byte operand is written. -/
def State.put8 (s : State) (e : RM Reg8) (v : Byte) : State :=
  match e with
  | .reg r => s.setReg8 r v
  | .mem m => s.store (s.effSeg m) (s.effOff m) 1 v

/-- An operand of `w` bits can be reached. -/
def State.okV (s : State) (w : Nat) (e : RM Gpr) (write : Bool) : Bool :=
  match e with
  | .reg _ => true
  | .mem m => s.reachable (s.effSeg m) (s.effOff m) (w / 8) write

/-- The value of an operand of `w` bits. -/
def State.getV (s : State) (w : Nat) : RM Gpr → BitVec w
  | .reg r => s.gprLow w r
  | .mem m => s.load (s.effSeg m) (s.effOff m) (w / 8) w

/-- The state after an operand of `w` bits is written. -/
def State.putV (s : State) {w : Nat} (e : RM Gpr) (v : BitVec w) : State :=
  match e with
  | .reg r => s.setGprLow r v
  | .mem m => s.store (s.effSeg m) (s.effOff m) (w / 8) v

/-- A byte source: an operand or an immediate. -/
inductive Src8 where
  | rm (e : RM Reg8)
  | imm (ib : Byte)
  deriving DecidableEq, Repr

/-- A source of the operand size: an operand, a full immediate, or a byte immediate that is sign-extended
(30_encoding.md R335, R336). -/
inductive SrcV where
  | rm (e : RM Gpr)
  | imm (iv : Dword)
  | immB (ib : Byte)
  deriving DecidableEq, Repr

/-- A byte source can be read. -/
def State.okSrc8 (s : State) : Src8 → Bool
  | .rm e => s.ok8 e false
  | .imm _ => true

/-- The value of a byte source. -/
def State.src8 (s : State) : Src8 → Byte
  | .rm e => s.get8 e
  | .imm ib => ib

/-- A source of `w` bits can be read. -/
def State.okSrcV (s : State) (w : Nat) : SrcV → Bool
  | .rm e => s.okV w e false
  | .imm _ | .immB _ => true

/-- The value of a source of `w` bits. -/
def State.srcV (s : State) (w : Nat) : SrcV → BitVec w
  | .rm e => s.getV w e
  | .imm iv => iv.setWidth w
  | .immB ib => ib.signExtend w

/-! ## The stack -/

/-- A push of `n` bytes can be made (40_data_movement.md R401). -/
def State.canPush (s : State) (n : Nat) : Bool :=
  s.reachable .ss (stackOff s.stack32 (s.gpr .esp - BitVec.ofNat 32 n)) n true

/-- The state after a push of the `n` low bytes of `v` (40_data_movement.md R401). -/
def State.pushed (s : State) (n : Nat) {w : Nat} (v : BitVec w) : State :=
  let off := stackOff s.stack32 (s.gpr .esp - BitVec.ofNat 32 n)
  (s.store .ss off n v).setSp off

/-- `count` pushes of `n` bytes can be made one after the other. -/
def State.canPushAll (s : State) (n count : Nat) : Bool :=
  (s.pushOffs n count).all fun off => s.reachable .ss off n true

/-- The state after pushes of the `n` low bytes of each of `vs`. -/
def State.pushedAll (s : State) (n : Nat) (vs : List Dword) : State :=
  let t := ((s.pushOffs n vs.length).zip vs).foldl (fun t c => t.storeBytes (s.addrs .ss c.1 n) (leBytes n c.2)) s
  t.setSp (s.gpr .esp - BitVec.ofNat 32 (n * vs.length))

/-- A pop of `n` bytes can be made (40_data_movement.md R402). -/
def State.canPop (s : State) (n : Nat) : Bool := s.reachable .ss s.sp n false

/-- The value at the top of the stack. -/
def State.top (s : State) (n w : Nat) : BitVec w := s.load .ss s.sp n w

/-- The state after a pop of `n` bytes: the stack pointer moved. -/
def State.popped (s : State) (n : Nat) : State := s.setSp (s.gpr .esp + BitVec.ofNat 32 n)

/-! ## Descriptors and segment loads, paging off -/

/-- The descriptor a selector names, with its bytes in RAM (20_memory.md R174). -/
def State.descFor (s : State) (sel : Word) : Option Desc :=
  match s.descTable sel with
  | none => none
  | some (tb, tl) =>
    let index := (sel.extractLsb' 3 13).toNat
    let addr := tb + BitVec.ofNat 32 (index * 8)
    if tl.toNat < index * 8 + 7 then none
    else if !s.pg && (addrsFrom addr 8).all fun pa => s.kindAt pa.toNat == .ram then
      some { raw := s.valueAt 64 (addrsFrom addr 8), addr := addr }
    else none

/-- The state after the accessed bit of a descriptor is set (20_memory.md R167). -/
def State.accessed (s : State) (d : Desc) : State :=
  if d.typ.getLsbD 0 then s else s.storeByte (d.addr + 5) (s.byteAt (d.addr + 5) ||| 1)

/-- The checks of a load of SS pass (20_memory.md R181). -/
def State.ssFits (s : State) (sel : Word) (d : Desc) : Bool :=
  rpl sel == s.cpl && d.writableData && d.dpl == s.cpl && d.p

/-- The checks of a load of DS, ES, FS or GS pass (20_memory.md R180). -/
def State.dataFits (s : State) (sel : Word) (d : Desc) : Bool :=
  d.readable && d.p &&
    (d.isCode && d.conforming || decide (s.cpl.toNat ≤ d.dpl.toNat ∧ (rpl sel).toNat ≤ d.dpl.toNat))

/-- A segment register other than CS can be loaded with `sel` (20_memory.md R180, R181, R183). -/
def State.canLoadSeg (s : State) (r : Sreg) (sel : Word) : Bool :=
  !s.pe ||
    if r = .ss then !isNull sel && (s.descFor sel).any (s.ssFits sel)
    else isNull sel || (s.descFor sel).any (s.dataFits sel)

/-- The state after a segment register other than CS is loaded with `sel` (20_memory.md R173, R180, R183). -/
def State.loadedSeg (s : State) (r : Sreg) (sel : Word) : State :=
  if !s.pe then s.setSeg r ((s.seg r).realLoad sel)
  else if isNull sel && r != .ss then s.setSeg r (nullSeg (s.seg r) sel)
  else
    match s.descFor sel with
    | some d => (s.accessed d).setSeg r (d.toSeg sel)
    | none => s

/-- The error code that names a selector: its index and its table (20_memory.md R175). -/
def selCode (sel : Word) : Word := sel &&& 0xFFFC

/-- The bytes the descriptor of `sel` would be read from are RAM, or the selector is outside its table. -/
def State.tableRam (s : State) (sel : Word) : Bool :=
  match s.descTable sel with
  | none => true
  | some (tb, tl) =>
    let index := (sel.extractLsb' 3 13).toNat
    decide (tl.toNat < index * 8 + 7) ||
      (!s.pg && (addrsFrom (tb + BitVec.ofNat 32 (index * 8)) 8).all fun pa => s.kindAt pa.toNat == .ram)

/-- The data segment `d` may not be used from CPL through the selector `sel`: it is neither conforming code nor of a level
that admits both (20_memory.md R180). -/
def State.dataDenied (s : State) (sel : Word) (d : Desc) : Bool :=
  !(d.isCode && d.conforming) && decide (d.dpl.toNat < s.cpl.toNat ∨ d.dpl.toNat < (rpl sel).toNat)

/-- The exception that a load of a segment register other than CS with `sel` raises in protected mode, vector and error
code; none where the load succeeds (20_memory.md R180, R181). -/
def State.segFault (s : State) (r : Sreg) (sel : Word) : Option (Byte × Word) :=
  if isNull sel then (if r = .ss then some (13, 0) else none)
  else
    match s.descFor sel with
    | none => some (13, selCode sel)
    | some d =>
      if r = .ss then
        if rpl sel != s.cpl || !d.writableData || d.dpl != s.cpl then some (13, selCode sel)
        else if !d.p then some (12, selCode sel)
        else none
      else if !d.readable || s.dataDenied sel d then some (13, selCode sel)
      else if !d.p then some (11, selCode sel)
      else none

/-- The state after a selector is stored in a word operand (40_data_movement.md R404, 92_eei_decisions.md D7). -/
def State.putWord (s : State) (e : RM Gpr) (v : Word) : State :=
  match e with
  | .mem m => s.store (s.effSeg m) (s.effOff m) 2 v
  | .reg r => if s.o32 then (s.drawn 1).setGpr r ((s.any 0).setWidth 16 ++ v) else s.setGprLow r v

/-! ## Privilege -/

/-- A privileged instruction may run: real-address mode, or level 0 (46_system.md R770). -/
def State.privileged (s : State) : Bool := !s.pe || s.cpl == 0

/-- CLI and STI may run: real-address mode, or CPL not above IOPL (45_flag_misc.md R725). -/
def State.ioSensitive (s : State) : Bool := !s.pe || decide (s.cpl.toNat ≤ s.iopl.toNat)

/-- The exception `vec` with error code `err`, taken from the state `s` (60_exceptions.md R940). -/
def State.trapped (s : State) (vec : Byte) (err : Option Word) : Outcome := takeException { vec := vec, err := err } s

/-! ## Two-operand operations -/

/-- The operations with two operands (41_arithmetic.md R451 to R454, 42_logic_shift_bit.md R501 to R503). -/
inductive Alu where
  | add | adc | sub | sbb | and | or | xor
  deriving DecidableEq, Repr

/-- The result and the flags of an operation in the state `s`; AF of the Boolean ones is a free value
(41_arithmetic.md R451 to R454, 42_logic_shift_bit.md R500). -/
def Alu.result (op : Alu) (s : State) {n : Nat} (a b : BitVec n) : BitVec n × Flags :=
  match op with
  | .add => addFlags a b false
  | .adc => addFlags a b s.cf
  | .sub => subFlags a b false
  | .sbb => subFlags a b s.cf
  | .and => (a &&& b, logicFlags (a &&& b) (s.any 0))
  | .or => (a ||| b, logicFlags (a ||| b) (s.any 0))
  | .xor => (a ^^^ b, logicFlags (a ^^^ b) (s.any 0))

/-- How many free values an operation draws. -/
def Alu.draws : Alu → Nat
  | .add | .adc | .sub | .sbb => 0
  | .and | .or | .xor => 1

/-- The byte forms of the two-operand operations: operation, destination, source. -/
def binary8 : Instr → Option (Alu × RM Reg8 × Src8)
  | .addEbGb e g => some (.add, e, .rm (.reg g))
  | .addGbEb g e => some (.add, .reg g, .rm e)
  | .addALIb ib => some (.add, .reg .al, .imm ib)
  | .addEbIb e ib => some (.add, e, .imm ib)
  | .adcEbGb e g => some (.adc, e, .rm (.reg g))
  | .adcGbEb g e => some (.adc, .reg g, .rm e)
  | .adcALIb ib => some (.adc, .reg .al, .imm ib)
  | .adcEbIb e ib => some (.adc, e, .imm ib)
  | .subEbGb e g => some (.sub, e, .rm (.reg g))
  | .subGbEb g e => some (.sub, .reg g, .rm e)
  | .subALIb ib => some (.sub, .reg .al, .imm ib)
  | .subEbIb e ib => some (.sub, e, .imm ib)
  | .sbbEbGb e g => some (.sbb, e, .rm (.reg g))
  | .sbbGbEb g e => some (.sbb, .reg g, .rm e)
  | .sbbALIb ib => some (.sbb, .reg .al, .imm ib)
  | .sbbEbIb e ib => some (.sbb, e, .imm ib)
  | .andEbGb e g => some (.and, e, .rm (.reg g))
  | .andGbEb g e => some (.and, .reg g, .rm e)
  | .andALIb ib => some (.and, .reg .al, .imm ib)
  | .andEbIb e ib => some (.and, e, .imm ib)
  | .orEbGb e g => some (.or, e, .rm (.reg g))
  | .orGbEb g e => some (.or, .reg g, .rm e)
  | .orALIb ib => some (.or, .reg .al, .imm ib)
  | .orEbIb e ib => some (.or, e, .imm ib)
  | .xorEbGb e g => some (.xor, e, .rm (.reg g))
  | .xorGbEb g e => some (.xor, .reg g, .rm e)
  | .xorALIb ib => some (.xor, .reg .al, .imm ib)
  | .xorEbIb e ib => some (.xor, e, .imm ib)
  | _ => none

/-- The operand-size forms of the two-operand operations. -/
def binaryV : Instr → Option (Alu × RM Gpr × SrcV)
  | .addEvGv e g => some (.add, e, .rm (.reg g))
  | .addGvEv g e => some (.add, .reg g, .rm e)
  | .addEAXIv iv => some (.add, .reg .eax, .imm iv)
  | .addEvIv e iv => some (.add, e, .imm iv)
  | .addEvIb e ib => some (.add, e, .immB ib)
  | .adcEvGv e g => some (.adc, e, .rm (.reg g))
  | .adcGvEv g e => some (.adc, .reg g, .rm e)
  | .adcEAXIv iv => some (.adc, .reg .eax, .imm iv)
  | .adcEvIv e iv => some (.adc, e, .imm iv)
  | .adcEvIb e ib => some (.adc, e, .immB ib)
  | .subEvGv e g => some (.sub, e, .rm (.reg g))
  | .subGvEv g e => some (.sub, .reg g, .rm e)
  | .subEAXIv iv => some (.sub, .reg .eax, .imm iv)
  | .subEvIv e iv => some (.sub, e, .imm iv)
  | .subEvIb e ib => some (.sub, e, .immB ib)
  | .sbbEvGv e g => some (.sbb, e, .rm (.reg g))
  | .sbbGvEv g e => some (.sbb, .reg g, .rm e)
  | .sbbEAXIv iv => some (.sbb, .reg .eax, .imm iv)
  | .sbbEvIv e iv => some (.sbb, e, .imm iv)
  | .sbbEvIb e ib => some (.sbb, e, .immB ib)
  | .andEvGv e g => some (.and, e, .rm (.reg g))
  | .andGvEv g e => some (.and, .reg g, .rm e)
  | .andEAXIv iv => some (.and, .reg .eax, .imm iv)
  | .andEvIv e iv => some (.and, e, .imm iv)
  | .andEvIb e ib => some (.and, e, .immB ib)
  | .orEvGv e g => some (.or, e, .rm (.reg g))
  | .orGvEv g e => some (.or, .reg g, .rm e)
  | .orEAXIv iv => some (.or, .reg .eax, .imm iv)
  | .orEvIv e iv => some (.or, e, .imm iv)
  | .orEvIb e ib => some (.or, e, .immB ib)
  | .xorEvGv e g => some (.xor, e, .rm (.reg g))
  | .xorGvEv g e => some (.xor, .reg g, .rm e)
  | .xorEAXIv iv => some (.xor, .reg .eax, .imm iv)
  | .xorEvIv e iv => some (.xor, e, .imm iv)
  | .xorEvIb e ib => some (.xor, e, .immB ib)
  | _ => none

/-- The byte forms of CMP and TEST (41_arithmetic.md R455, 42_logic_shift_bit.md R505). -/
def compare8 : Instr → Option (Alu × RM Reg8 × Src8)
  | .cmpEbGb e g => some (.sub, e, .rm (.reg g))
  | .cmpGbEb g e => some (.sub, .reg g, .rm e)
  | .cmpALIb ib => some (.sub, .reg .al, .imm ib)
  | .cmpEbIb e ib => some (.sub, e, .imm ib)
  | .testEbGb e g => some (.and, e, .rm (.reg g))
  | .testALIb ib => some (.and, .reg .al, .imm ib)
  | .testEbIb e ib => some (.and, e, .imm ib)
  | _ => none

/-- The operand-size forms of CMP and TEST. -/
def compareV : Instr → Option (Alu × RM Gpr × SrcV)
  | .cmpEvGv e g => some (.sub, e, .rm (.reg g))
  | .cmpGvEv g e => some (.sub, .reg g, .rm e)
  | .cmpEAXIv iv => some (.sub, .reg .eax, .imm iv)
  | .cmpEvIv e iv => some (.sub, e, .imm iv)
  | .cmpEvIb e ib => some (.sub, e, .immB ib)
  | .testEvGv e g => some (.and, e, .rm (.reg g))
  | .testEAXIv iv => some (.and, .reg .eax, .imm iv)
  | .testEvIv e iv => some (.and, e, .imm iv)
  | _ => none

/-! ## One-operand operations -/

/-- The operations with one operand (41_arithmetic.md R456 to R458, 42_logic_shift_bit.md R504). -/
inductive Unary where
  | inc | dec | neg | not
  deriving DecidableEq, Repr

/-- The result and the flags of a one-operand operation: INC and DEC keep CF, NOT keeps all flags. -/
def Unary.result (op : Unary) (s : State) {n : Nat} (a : BitVec n) : BitVec n × Flags :=
  match op with
  | .inc => incFlags a s.flags
  | .dec => decFlags a s.flags
  | .neg => subFlags 0#n a false
  | .not => (~~~a, s.flags)

/-- The byte forms of the one-operand operations. -/
def unary8 : Instr → Option (Unary × RM Reg8)
  | .incEb e => some (.inc, e)
  | .decEb e => some (.dec, e)
  | .negEb e => some (.neg, e)
  | .notEb e => some (.not, e)
  | _ => none

/-- The operand-size forms of the one-operand operations. -/
def unaryV : Instr → Option (Unary × RM Gpr)
  | .incEv e => some (.inc, e)
  | .decEv e => some (.dec, e)
  | .negEv e => some (.neg, e)
  | .notEv e => some (.not, e)
  | .incRv r => some (.inc, .reg r)
  | .decRv r => some (.dec, .reg r)
  | _ => none

/-! ## Shifts and rotates -/

/-- Where a count comes from. -/
inductive Count where
  | one
  | cl
  | imm (ib : Byte)
  deriving DecidableEq, Repr

/-- The masked count (42_logic_shift_bit.md R506). -/
def State.shiftCount (s : State) : Count → Nat
  | .one => 1
  | .cl => maskCount (s.reg8 .cl)
  | .imm ib => maskCount ib

/-- The seven shifts and rotates. -/
inductive Shift where
  | rol | ror | rcl | rcr | shl | shr | sar
  deriving DecidableEq, Repr

/-- The result and the flags of a shift by a count that is not 0 (42_logic_shift_bit.md R507 to R513). -/
def Shift.result (op : Shift) {n : Nat} (a : BitVec n) (c : Nat) (old : Flags) (x : Dword) : BitVec n × Flags :=
  match op with
  | .rol => rolAlu a c old x
  | .ror => rorAlu a c old x
  | .rcl => rclAlu a c old x
  | .rcr => rcrAlu a c old x
  | .shl => shlAlu a c x
  | .shr => shrAlu a c x
  | .sar => sarAlu a c x

/-- The byte forms of the shifts and rotates. -/
def shift8 : Instr → Option (Shift × RM Reg8 × Count)
  | .rolEb1 e => some (.rol, e, .one)
  | .rolEbCL e => some (.rol, e, .cl)
  | .rolEbIb e ib => some (.rol, e, .imm ib)
  | .rorEb1 e => some (.ror, e, .one)
  | .rorEbCL e => some (.ror, e, .cl)
  | .rorEbIb e ib => some (.ror, e, .imm ib)
  | .rclEb1 e => some (.rcl, e, .one)
  | .rclEbCL e => some (.rcl, e, .cl)
  | .rclEbIb e ib => some (.rcl, e, .imm ib)
  | .rcrEb1 e => some (.rcr, e, .one)
  | .rcrEbCL e => some (.rcr, e, .cl)
  | .rcrEbIb e ib => some (.rcr, e, .imm ib)
  | .shlEb1 e => some (.shl, e, .one)
  | .shlEbCL e => some (.shl, e, .cl)
  | .shlEbIb e ib => some (.shl, e, .imm ib)
  | .shrEb1 e => some (.shr, e, .one)
  | .shrEbCL e => some (.shr, e, .cl)
  | .shrEbIb e ib => some (.shr, e, .imm ib)
  | .sarEb1 e => some (.sar, e, .one)
  | .sarEbCL e => some (.sar, e, .cl)
  | .sarEbIb e ib => some (.sar, e, .imm ib)
  | _ => none

/-- The operand-size forms of the shifts and rotates. -/
def shiftV : Instr → Option (Shift × RM Gpr × Count)
  | .rolEv1 e => some (.rol, e, .one)
  | .rolEvCL e => some (.rol, e, .cl)
  | .rolEvIb e ib => some (.rol, e, .imm ib)
  | .rorEv1 e => some (.ror, e, .one)
  | .rorEvCL e => some (.ror, e, .cl)
  | .rorEvIb e ib => some (.ror, e, .imm ib)
  | .rclEv1 e => some (.rcl, e, .one)
  | .rclEvCL e => some (.rcl, e, .cl)
  | .rclEvIb e ib => some (.rcl, e, .imm ib)
  | .rcrEv1 e => some (.rcr, e, .one)
  | .rcrEvCL e => some (.rcr, e, .cl)
  | .rcrEvIb e ib => some (.rcr, e, .imm ib)
  | .shlEv1 e => some (.shl, e, .one)
  | .shlEvCL e => some (.shl, e, .cl)
  | .shlEvIb e ib => some (.shl, e, .imm ib)
  | .shrEv1 e => some (.shr, e, .one)
  | .shrEvCL e => some (.shr, e, .cl)
  | .shrEvIb e ib => some (.shr, e, .imm ib)
  | .sarEv1 e => some (.sar, e, .one)
  | .sarEvCL e => some (.sar, e, .cl)
  | .sarEvIb e ib => some (.sar, e, .imm ib)
  | _ => none

/-! ## Bit tests -/

/-- The four bit tests (42_logic_shift_bit.md R517 to R520). -/
inductive BitOp where
  | bts | btr | btc
  deriving DecidableEq, Repr

/-- The word with the tested bit changed. -/
def BitOp.change (op : BitOp) {n : Nat} (v : BitVec n) (i : Nat) : BitVec n :=
  match op with
  | .bts => putBit v i true
  | .btr => putBit v i false
  | .btc => putBit v i (!v.getLsbD i)

/-- BT: operand and bit offset (42_logic_shift_bit.md R517). -/
def bitTestForm : Instr → Option (RM Gpr × BitIndex)
  | .btEvGv e g => some (e, .reg g)
  | .btEvIb e ib => some (e, .imm ib)
  | _ => none

/-- BTS, BTR and BTC: operation, operand, bit offset. -/
def bitChangeForm : Instr → Option (BitOp × RM Gpr × BitIndex)
  | .btsEvGv e g => some (.bts, e, .reg g)
  | .btsEvIb e ib => some (.bts, e, .imm ib)
  | .btrEvGv e g => some (.btr, e, .reg g)
  | .btrEvIb e ib => some (.btr, e, .imm ib)
  | .btcEvGv e g => some (.btc, e, .reg g)
  | .btcEvIb e ib => some (.btc, e, .imm ib)
  | _ => none

/-- The offset of the word that holds the tested bit (42_logic_shift_bit.md R516). -/
def State.bitOff (s : State) (w : Nat) (m : Mem) (x : BitIndex) : Dword :=
  bitWordOff s.a32 w (s.effOff m) x (s.bitOffset w x)

/-- The word that holds the tested bit can be reached. -/
def State.okBit (s : State) (w : Nat) (e : RM Gpr) (x : BitIndex) (write : Bool) : Bool :=
  match e with
  | .reg _ => true
  | .mem m => s.reachable (s.effSeg m) (s.bitOff w m x) (w / 8) write

/-- The word that holds the tested bit. -/
def State.getBitWord (s : State) (w : Nat) (e : RM Gpr) (x : BitIndex) : BitVec w :=
  match e with
  | .reg r => s.gprLow w r
  | .mem m => s.load (s.effSeg m) (s.bitOff w m x) (w / 8) w

/-- The state after the word that holds the tested bit is written. -/
def State.putBitWord (s : State) {w : Nat} (e : RM Gpr) (x : BitIndex) (v : BitVec w) : State :=
  match e with
  | .reg r => s.setGprLow r v
  | .mem m => s.store (s.effSeg m) (s.bitOff w m x) (w / 8) v

/-! ## Moves -/

/-- The byte forms of MOV (40_data_movement.md R403). -/
def move8 : Instr → Option (RM Reg8 × Src8)
  | .movEbGb e g => some (e, .rm (.reg g))
  | .movGbEb g e => some (.reg g, .rm e)
  | .movRbIb r ib => some (.reg r, .imm ib)
  | .movEbIb e ib => some (e, .imm ib)
  | _ => none

/-- The operand-size forms of MOV (40_data_movement.md R403). -/
def moveV : Instr → Option (RM Gpr × SrcV)
  | .movEvGv e g => some (e, .rm (.reg g))
  | .movGvEv g e => some (.reg g, .rm e)
  | .movRvIv r iv => some (.reg r, .imm iv)
  | .movEvIv e iv => some (e, .imm iv)
  | _ => none

/-- PUSH of an operand or an immediate (40_data_movement.md R406). -/
def pushForm : Instr → Option (SrcV)
  | .pushRv r => some (.rm (.reg r))
  | .pushEv e => some (.rm e)
  | .pushIv iv => some (.imm iv)
  | .pushIb ib => some (.immB ib)
  | _ => none

/-- PUSH of a segment register (40_data_movement.md R407). -/
def pushSegForm : Instr → Option (Sreg)
  | .pushES => some (.es)
  | .pushCS => some (.cs)
  | .pushSS => some (.ss)
  | .pushDS => some (.ds)
  | .pushFS => some (.fs)
  | .pushGS => some (.gs)
  | _ => none

/-- POP to an operand (40_data_movement.md R408). -/
def popForm : Instr → Option (RM Gpr)
  | .popRv r => some (.reg r)
  | .popEv e => some (e)
  | _ => none

/-- POP to a segment register (40_data_movement.md R409). -/
def popSegForm : Instr → Option (Sreg)
  | .popES => some (.es)
  | .popSS => some (.ss)
  | .popDS => some (.ds)
  | .popFS => some (.fs)
  | .popGS => some (.gs)
  | _ => none

/-- LDS, LES, LFS, LGS and LSS (40_data_movement.md R418). -/
def loadFarForm : Instr → Option (Sreg × Gpr × Mem)
  | .ldsGvMp g m => some (.ds, g, m)
  | .lesGvMp g m => some (.es, g, m)
  | .lfsGvMp g m => some (.fs, g, m)
  | .lgsGvMp g m => some (.gs, g, m)
  | .lssGvMp g m => some (.ss, g, m)
  | _ => none

/-! ## Strings -/

/-- The seven string instructions. -/
inductive StringOp where
  | movs | cmps | scas | lods | stos | ins | outs
  deriving DecidableEq, Repr

/-- The string instructions; `true` for byte elements (44_string_io.md R661 to R665, R672, R673). -/
def stringForm : Instr → Option (StringOp × Bool)
  | .movsb => some (.movs, true)
  | .movsv => some (.movs, false)
  | .cmpsb => some (.cmps, true)
  | .cmpsv => some (.cmps, false)
  | .scasb => some (.scas, true)
  | .scasv => some (.scas, false)
  | .lodsb => some (.lods, true)
  | .lodsv => some (.lods, false)
  | .stosb => some (.stos, true)
  | .stosv => some (.stos, false)
  | .insb => some (.ins, true)
  | .insv => some (.ins, false)
  | .outsb => some (.outs, true)
  | .outsv => some (.outs, false)
  | _ => none

/-! ## I/O, paging off -/

/-- The bytes of the TSS are RAM and paging is off. -/
def State.tssRam (s : State) : Bool :=
  !s.pg && (addrsFrom s.tr.base (s.tr.limit.toNat + 1)).all fun pa => s.kindAt pa.toNat == .ram

/-- The base of the I/O permission map (44_string_io.md R701). -/
def State.mapBase (s : State) : Nat := leNat ((addrsFrom (s.tr.base + 0x66) 2).map s.byteAt)

/-- The map has a clear bit for port `p` (44_string_io.md R701). -/
def State.portOpen (s : State) (p : Nat) : Bool :=
  let off := s.mapBase + p / 8
  decide (p ≤ 0xFFFF ∧ off ≤ s.tr.limit.toNat) && !(s.byteAt (s.tr.base + BitVec.ofNat 32 off)).getLsbD (p % 8)

/-- The map allows the `n` ports from `port` on (44_string_io.md R701). -/
def State.mapAllows (s : State) (port : Word) (n : Nat) : Bool :=
  s.tr.valid && decide (0x67 ≤ s.tr.limit.toNat ∧ s.mapBase < s.tr.limit.toNat) &&
    ((List.range n).map (port.toNat + ·)).all s.portOpen

/-- The level alone allows every port (44_string_io.md R700). -/
def State.portsFree (s : State) : Bool := !(s.pe && decide (s.iopl.toNat < s.cpl.toNat))

/-- The `n` ports from `port` on may be accessed (44_string_io.md R700, R701). -/
def State.canIo (s : State) (port : Word) (n : Nat) : Bool := s.portsFree || (s.tssRam && s.mapAllows port n)

/-- The state after a port is read: the value is the environment's (20_memory.md R152). -/
def State.portIn (s : State) (port : Word) (w : Nat) : State :=
  (s.drawn 1).event (.portRead port (w / 8) (((s.any 0).setWidth w : BitVec w).setWidth 32))

/-- The state after a value is written to a port (20_memory.md R152). -/
def State.portOut (s : State) {w : Nat} (port : Word) (v : BitVec w) : State :=
  s.event (.portWrite port (w / 8) (v.setWidth 32))

/-- The accesses of one string element can be made (44_string_io.md R661 to R665, R672, R673). -/
def State.canElement (s : State) (op : StringOp) (w : Nat) : Bool :=
  let src := s.reachable s.dataSeg s.srcOff (w / 8) false
  match op with
  | .movs => src && s.reachable .es s.dstOff (w / 8) true
  | .cmps => src && s.reachable .es s.dstOff (w / 8) false
  | .scas => s.reachable .es s.dstOff (w / 8) false
  | .lods => src
  | .stos => s.reachable .es s.dstOff (w / 8) true
  | .ins => s.canIo (s.gprLow 16 .edx) (w / 8) && s.reachable .es s.dstOff (w / 8) true
  | .outs => s.canIo (s.gprLow 16 .edx) (w / 8) && src

/-- The state after one string element (44_string_io.md R661 to R665, R672, R673). -/
def State.element (s : State) (op : StringOp) (w : Nat) : State :=
  let src : BitVec w := s.load s.dataSeg s.srcOff (w / 8) w
  let dst : BitVec w := s.load .es s.dstOff (w / 8) w
  match op with
  | .movs => ((s.store .es s.dstOff (w / 8) src).stepIndex .esi w).stepIndex .edi w
  | .cmps => ((s.setFlags (subFlags src dst false).2).stepIndex .esi w).stepIndex .edi w
  | .scas => (s.setFlags (subFlags (s.gprLow w .eax) dst false).2).stepIndex .edi w
  | .lods => (s.setGprLow .eax src).stepIndex .esi w
  | .stos => (s.store .es s.dstOff (w / 8) (s.gprLow w .eax)).stepIndex .edi w
  | .ins =>
    ((s.portIn (s.gprLow 16 .edx) w).storeBytes (s.addrs .es s.dstOff (w / 8))
      (leBytes (w / 8) ((s.any 0).setWidth w : BitVec w))).stepIndex .edi w
  | .outs => (s.portOut (s.gprLow 16 .edx) src).stepIndex .esi w

/-- The repetition of CMPS or SCAS ends at the element just done (44_string_io.md R667, R668). -/
def State.ends (s : State) (op : StringOp) (k : RepKind) : Bool :=
  match op, k with
  | .cmps, .rep | .scas, .rep => !s.zf
  | .cmps, .repne | .scas, .repne => s.zf
  | _, _ => false

/-- The width of an element in bits. -/
def State.elementBits (s : State) (byte : Bool) : Nat := if byte then 8 else s.osz

/-! ## Control transfer -/

/-- The offset is inside the code segment (43_control_transfer.md R560). -/
def State.inCode (s : State) (off : Dword) : Bool := decide (off.toNat ≤ s.segs.cs.limit.toNat)

/-- The target of a relative transfer (43_control_transfer.md R560). -/
def State.branchTo (s : State) (disp : State → Dword) : Dword := s.truncTarget (s.relTarget disp)

/-- A branch can be taken or passed over without an exception. -/
def State.canBranch (s : State) (taken : Bool) (disp : State → Dword) : Bool := !taken || s.inCode (s.branchTo disp)

/-- The state after a branch. -/
def State.branched (s : State) (taken : Bool) (disp : State → Dword) : State :=
  if taken then s.goTo (s.branchTo disp) else s.advance

/-- A far pointer: in the instruction or in memory (43_control_transfer.md R576). -/
inductive FarSrc where
  | ptr (off : Dword) (sel : Word)
  | mem (m : Mem)
  deriving DecidableEq, Repr

/-- JMP and CALL to a far pointer; `true` for CALL (43_control_transfer.md R576, R577). -/
def farForm : Instr → Option (Bool × FarSrc)
  | .jmpAp off sel => some (false, .ptr off sel)
  | .jmpEp m => some (false, .mem m)
  | .callAp off sel => some (true, .ptr off sel)
  | .callEp m => some (true, .mem m)
  | _ => none

/-- A far pointer can be read. -/
def State.okFar (s : State) : FarSrc → Bool
  | .ptr _ _ => true
  | .mem m => s.reachable (s.effSeg m) (s.effOff m) (s.osz / 8 + 2) false

/-- Offset and selector of a far pointer. -/
def State.farPtr (s : State) : FarSrc → Dword × Word
  | .ptr off sel => (off, sel)
  | .mem m =>
    let v : BitVec 48 := s.load (s.effSeg m) (s.effOff m) (s.osz / 8 + 2) 48
    if s.o32 then (v.setWidth 32, v.extractLsb' 32 16) else ((v.setWidth 16).setWidth 32, v.extractLsb' 16 16)

/-- A direct transfer to the code segment `d` is allowed (43_control_transfer.md R585). -/
def State.codeFits (s : State) (sel : Word) (d : Desc) : Bool :=
  d.isCode && d.p &&
    if d.conforming then decide (d.dpl.toNat ≤ s.cpl.toNat)
    else decide ((rpl sel).toNat ≤ s.cpl.toNat) && d.dpl == s.cpl

/-- A far JMP or CALL to `sel:off` in real-address mode, or to a code segment of the same level, can be made
(43_control_transfer.md R580, R585). -/
def State.canFar (s : State) (call : Bool) (sel : Word) (off : Dword) : Bool :=
  (!call || s.canPushAll s.oszBytes 2) &&
    if !s.pe then s.inCode off
    else !isNull sel && (s.descFor sel).any fun d => s.codeFits sel d && decide (off.toNat ≤ d.limit32.toNat)

/-- The state after CS is loaded from the descriptor of `sel`, with the RPL `lvl`, and EIP with `off`
(43_control_transfer.md R585). -/
def State.enterCode (s : State) (sel : Word) (lvl : BitVec 2) (d : Desc) (off : Dword) : State :=
  ((s.accessed d).setSeg .cs (d.toSeg (withRpl sel lvl))).goTo off

/-- The state after CS is loaded in real-address mode (43_control_transfer.md R580). -/
def State.enterReal (s : State) (sel : Word) (off : Dword) : State :=
  (s.setSeg .cs (s.segs.cs.realLoad sel)).goTo off

/-- The state after a far CALL has pushed its return address (43_control_transfer.md R577). -/
def State.pushedReturn (s : State) : State :=
  (s.drawn 1).pushedAll s.oszBytes [(s.any 0).setWidth 16 ++ s.segs.cs.sel, s.nextEip]

/-- The state after a far JMP or CALL (43_control_transfer.md R580, R585). -/
def State.farDone (s : State) (call : Bool) (sel : Word) (off : Dword) : State :=
  let t := if call then s.pushedReturn else s
  if !s.pe then t.enterReal sel off
  else
    match s.descFor sel with
    | some d => t.enterCode sel s.cpl d off
    | none => s

/-- The `n` bytes found `k` bytes above the stack pointer can be read (43_control_transfer.md R595, R609). -/
def State.canSlot (s : State) (k n : Nat) : Bool := s.reachable .ss (s.slotOff k) n false

/-- The `n` bytes found `k` bytes above the stack pointer. -/
def State.slot (s : State) (k n w : Nat) : BitVec w := s.load .ss (s.slotOff k) n w

/-- A return to the code segment `d` at the same level is allowed (43_control_transfer.md R595, R597). -/
def State.returnFits (s : State) (sel : Word) (d : Desc) : Bool :=
  rpl sel == s.cpl && !isNull sel && d.isCode && d.p &&
    if d.conforming then decide (d.dpl.toNat ≤ (rpl sel).toNat) else d.dpl == rpl sel

/-- A return address popped to `sel:off` can be entered: real-address mode, or the same level
(43_control_transfer.md R580, R595, R609, R611). -/
def State.canReturnTo (s : State) (sel : Word) (off : Dword) : Bool :=
  if !s.pe then s.inCode off
  else (s.descFor sel).any fun d => s.returnFits sel d && decide (off.toNat ≤ d.limit32.toNat)

/-- The state after a return to `sel:off`: real-address mode, or the same level. -/
def State.returnTo (s : State) (sel : Word) (off : Dword) : State :=
  if !s.pe then s.enterReal sel off
  else
    match s.descFor sel with
    | some d => ((s.accessed d).setSeg .cs (d.toSeg sel)).goTo off
    | none => s

/-- The stack holds the return address of RETF: two slots in protected mode, the offset and the two bytes of the selector in
real-address mode (43_control_transfer.md R580, R595). -/
def State.holdsReturn (s : State) : Bool :=
  let n := s.oszBytes
  if s.pe then s.holdsSlots 0 n 2 else s.holdsSlots 0 n 1 && s.holdsSlots n 2 1

/-- A far return can be made (43_control_transfer.md R580, R595). -/
def State.canRetf (s : State) : Bool :=
  let n := s.oszBytes
  s.holdsReturn && s.canSlot 0 n && s.canSlot n 2 && s.canReturnTo (s.slot n 2 16) (s.slot 0 n 32)

/-- The state after a far return that releases `extra` bytes (43_control_transfer.md R580, R595). -/
def State.retfDone (s : State) (extra : Nat) : State :=
  let n := s.oszBytes
  (s.releaseStack (2 * n + extra)).returnTo (s.slot n 2 16) (s.slot 0 n 32)

/-- IRET can be made in real-address mode, or with NT = 0 at the same level (43_control_transfer.md R609 to R611). -/
def State.canIret (s : State) : Bool :=
  let n := s.oszBytes
  s.holdsSlots 0 n 3 && s.canSlot 0 n && s.canSlot (2 * n) n &&
    if !s.pe then s.canSlot n n && s.inCode (s.slot 0 n 32)
    else
      !s.nt && s.canSlot n 2 && !(n == 4 && (s.slot (2 * n) n 32).getLsbD 17 && s.cpl == 0) &&
        s.canReturnTo (s.slot n 2 16) (s.slot 0 n 32)

/-- The state after IRET: the NMI latch is clear, CS:EIP and the flags are loaded (43_control_transfer.md R609 to R612,
10_state.md R107, R62). -/
def State.iretDone (s : State) : State :=
  let n := s.oszBytes
  let sel : Word := if !s.pe then (s.slot n n 32).setWidth 16 else s.slot n 2 16
  let t : State := { s with nmiLatch := false, ctx := { s.ctx with keepRF := true } }
  let u := (t.releaseStack (3 * n)).returnTo sel (s.slot 0 n 32)
  { u with eflags := writeFlags s.eflags (s.slot (2 * n) n 32) (n == 4) (if s.pe then some s.cpl else none) }

/-- The state after CS:EIP and SS:ESP of an outer level are loaded and `extra` bytes released there; with a 16-bit
operand size the upper half of ESP is open (43_control_transfer.md R596). -/
def State.toOuter (s : State) (n up extra : Nat) (d sd : Desc) : State :=
  let sel : Word := s.slot n 2 16
  let esp : Dword := s.slot up n 32
  let t := ((({ s with cpl := rpl sel } : State).accessed d).setSeg .cs (d.toSeg sel)).goTo (s.slot 0 n 32)
  let u := (t.accessed sd).setSeg .ss (sd.toSeg (s.slot (up + n) 2 16))
  let v := if n = 4 then u.setGpr .esp esp
    else (u.drawn 1).setGpr .esp ((u.any 0).setWidth 16 ++ (esp.setWidth 16 : Word))
  v.releaseStack extra

/-- A code segment of privilege `d.dpl` is not one that a direct far JMP or CALL may reach (43_control_transfer.md R585). -/
def State.codeDenied (s : State) (sel : Word) (d : Desc) : Bool :=
  if d.conforming then decide (s.cpl.toNat < d.dpl.toNat)
  else decide (s.cpl.toNat < (rpl sel).toNat) || d.dpl != s.cpl

/-- The descriptor may not be used from CPL through the selector `sel` (43_control_transfer.md R587, 47_multitasking.md
R866). -/
def State.useDenied (s : State) (sel : Word) (d : Desc) : Bool :=
  decide (d.dpl.toNat < s.cpl.toNat ∨ d.dpl.toNat < (rpl sel).toNat)

/-- The exception of a far JMP or CALL to `sel:off` in protected mode before anything is pushed: to a code segment, to a
386 TSS, or to what is no target at all; none where it can go on, and for gates (43_control_transfer.md R585,
47_multitasking.md R866, R871). -/
def State.farFault (s : State) (sel : Word) (off : Dword) : Option (Byte × Word) :=
  if isNull sel then some (13, 0)
  else
    match s.descFor sel with
    | none => some (13, selCode sel)
    | some d =>
      if d.isCode then
        if s.codeDenied sel d then some (13, selCode sel)
        else if !d.p then some (11, selCode sel)
        else if d.limit32.toNat < off.toNat then some (13, 0)
        else none
      else if d.s then some (13, selCode sel)
      else if d.typ = 9 ∨ d.typ = 11 then
        if ti sel || s.useDenied sel d || d.typ == 11 then some (13, selCode sel)
        else if !d.p then some (11, selCode sel)
        else if d.limit32.toNat < 103 then some (10, selCode sel)
        else none
      else if d.typ = 1 ∨ d.typ = 3 ∨ d.typ = 4 ∨ d.typ = 5 ∨ d.typ = 12 then none
      else some (13, selCode sel)

/-- A code segment that a return to level `rpl sel` may not reach (43_control_transfer.md R595). -/
def returnDenied (sel : Word) (d : Desc) : Bool :=
  if d.conforming then decide ((rpl sel).toNat < d.dpl.toNat) else d.dpl != rpl sel

/-- The exception that a return address `sel:off` raises in protected mode; none where the return goes on, at the same level
or to an outer one (43_control_transfer.md R595, R597). -/
def State.returnFault (s : State) (sel : Word) (off : Dword) : Option (Byte × Word) :=
  if (rpl sel).toNat < s.cpl.toNat then some (13, selCode sel)
  else if isNull sel then some (13, 0)
  else
    match s.descFor sel with
    | none => some (13, selCode sel)
    | some d =>
      if !d.isCode || returnDenied sel d then some (13, selCode sel)
      else if !d.p then some (11, selCode sel)
      else if rpl sel = s.cpl ∧ d.limit32.toNat < off.toNat then some (13, 0)
      else none

/-- The exception that the saved SS of an outer level raises, `nss`, where the level is `lvl` (43_control_transfer.md
R596). -/
def State.outerFault (s : State) (lvl : BitVec 2) (nss : Word) : Option (Byte × Word) :=
  if isNull nss then some (13, 0)
  else
    match s.descFor nss with
    | none => some (13, selCode nss)
    | some sd =>
      if rpl nss != lvl || !sd.writableData || sd.dpl != lvl then some (13, selCode nss)
      else if !sd.p then some (12, selCode nss)
      else none

/-- The call gate `g` may be used, and leads to the code segment `d` (43_control_transfer.md R587). -/
def State.callGateFits (s : State) (gsel : Word) (g d : Desc) : Bool :=
  !g.s && g.typ == 12 && s.mayUse g gsel && g.p && !isNull g.gateSel && d.isCode && d.p &&
    decide (g.gateOff.toNat ≤ d.limit32.toNat)

/-- The parameters that a call gate copies can be read (43_control_transfer.md R592). -/
def State.canParams (s : State) (count : Nat) : Bool :=
  (List.range count).all fun i => s.canSlot (4 * i) 4

/-- The parameters that a call gate copies, in the order they are pushed: the one at the top of the old stack last
(43_control_transfer.md R592). -/
def State.params (s : State) (count : Nat) : List Dword :=
  ((List.range count).map fun i => s.slot (4 * i) 4 32).reverse

/-- The copy of `count` outer frame pointers, the `i`-th first, if every access can be made
(43_control_transfer.md R616). -/
def State.display (narrow : Bool) (ebp : Dword) (n : Nat) : Nat → Nat → State → Option State
  | _, 0, s => some s
  | i, count + 1, s =>
    let off := displayOff narrow ebp n i
    if s.reachable .ss off n false && s.canPush n then
      State.display narrow ebp n (i + 1) count (s.pushed n (s.load .ss off n 32))
    else none

/-- The state after the frames of ENTER are pushed: the caller's EBP and, with a level, the display
(43_control_transfer.md R616). -/
def State.enterFrames (s : State) (level : Nat) : Option State :=
  let n := s.oszBytes
  if !s.canPush n then none
  else
    let t := s.pushed n (s.gpr .ebp)
    if level = 0 then some t
    else
      match State.display (!s.o32 || !s.stack32) (s.gpr .ebp) n 1 (level - 1) t with
      | none => none
      | some u => if u.canPush n then some (u.pushed n t.sp) else none

/-- The state after ENTER: EBP holds the frame and `alloc` bytes are reserved (43_control_transfer.md R616). -/
def State.enterDone (s u : State) (alloc : Word) : State :=
  let frame := (s.pushed s.oszBytes (s.gpr .ebp)).sp
  let v := if s.o32 then u.setGpr .ebp frame else u.setGprLow .ebp (frame.setWidth 16)
  v.setSp (v.gpr .esp - alloc.setWidth 32)

/-! ## Entry to a handler, paging off -/

/-- The entry of vector `v` in the interrupt vector table: offset and selector (60_exceptions.md R960). -/
def State.realVector (s : State) (v : Byte) : Word × Word :=
  let addr := s.idtr.base + BitVec.ofNat 32 (4 * v.toNat)
  (s.valueAt 16 (addrsFrom addr 2), s.valueAt 16 (addrsFrom (addr + 2) 2))

/-- Vector `v` can be delivered in real-address mode (60_exceptions.md R960). -/
def State.canEnterReal (s : State) (v : Byte) : Bool :=
  let addr := s.idtr.base + BitVec.ofNat 32 (4 * v.toNat)
  !s.pe && !s.pg && decide (4 * v.toNat + 3 ≤ s.idtr.limit.toNat) &&
    ((addrsFrom addr 2 ++ addrsFrom (addr + 2) 2).all fun pa => s.kindAt pa.toNat == .ram) &&
    s.segs.ss.room s.sp 2 3 && s.canPushAll 2 3

/-- The state after vector `v` is delivered in real-address mode: FLAGS, CS and IP are pushed, IF and TF are 0
(60_exceptions.md R960). -/
def State.enteredReal (s : State) (v : Byte) (eip : Dword) : State :=
  let t := s.pushedAll 2 [s.eflags, s.segs.cs.sel.setWidth 32, eip]
  ((t.putFlag 9 false).putFlag 8 false).enterReal (s.realVector v).2 ((s.realVector v).1.setWidth 32)

/-- The gate of vector `v`, with its bytes in RAM (60_exceptions.md R935). -/
def State.gateFor (s : State) (v : Byte) : Option Desc :=
  let addr := s.idtr.base + BitVec.ofNat 32 (8 * v.toNat)
  if decide (8 * v.toNat + 7 ≤ s.idtr.limit.toNat) && !s.pg &&
      (addrsFrom addr 8).all fun pa => s.kindAt pa.toNat == .ram then
    some { raw := s.valueAt 64 (addrsFrom addr 8), addr := addr }
  else none

/-- An interrupt or trap gate that the event may use (60_exceptions.md R940). -/
def State.gateFits (s : State) (g : Desc) (kind : EventKind) : Bool :=
  !g.s && (g.typ == 14 || g.typ == 15) && g.p && (kind != .software || decide (s.cpl.toNat ≤ g.dpl.toNat)) &&
    !isNull g.gateSel

/-- The handler is code of the current level, or conforming, and present (60_exceptions.md R940). -/
def State.handlerFits (s : State) (g d : Desc) : Bool :=
  d.isCode && d.p && decide (d.dpl.toNat ≤ s.cpl.toNat) && (d.conforming || d.dpl == s.cpl) &&
    decide (g.gateOff.toNat ≤ d.limit32.toNat)

/-- Vector `v` can be delivered in protected mode to a handler of the same level (60_exceptions.md R940). -/
def State.canEnterSame (s : State) (v : Byte) (kind : EventKind) (err : Option Word) : Bool :=
  s.pe && s.segs.ss.room s.sp 4 (3 + errCount err) && s.canPushAll 4 (3 + errCount err) &&
    (s.gateFor v).any fun g => s.gateFits g kind && (s.descFor g.gateSel).any (s.handlerFits g)

/-- The frame of a handler: flags, CS, EIP and the error code, the upper halves of the selector and error-code slots
open (60_exceptions.md R930, R941). -/
def State.frame (s : State) (k : Nat) (flags eip : Dword) (err : Option Word) : List Dword :=
  [flags, (s.any k).setWidth 16 ++ s.segs.cs.sel, eip] ++
    match err with
    | none => []
    | some e => [(s.any (k + 1)).setWidth 16 ++ e]

/-- The state after vector `v` is delivered to a handler of the same level (60_exceptions.md R940, R947). -/
def State.enteredSame (s : State) (v : Byte) (kind : EventKind) (err : Option Word) (eip : Dword) : State :=
  match s.gateFor v with
  | none => s
  | some g =>
    match s.descFor g.gateSel with
    | none => s
    | some d =>
      let t := (s.drawn (1 + errCount err)).pushedAll 4 (s.frame 0 (flagsImage s.eflags v kind) eip err)
      let u := t.enterCode g.gateSel s.cpl d g.gateOff
      { u with eflags := entryFlags s.eflags (g.typ == 14) }

/-- Vector `v` can be delivered without a change of level. -/
def State.canEnter (s : State) (v : Byte) (kind : EventKind) (err : Option Word) : Bool :=
  if s.pe then s.canEnterSame v kind err else s.canEnterReal v

/-- The state after vector `v` is delivered without a change of level. -/
def State.entered (s : State) (v : Byte) (kind : EventKind) (err : Option Word) (eip : Dword) : State :=
  if s.pe then s.enteredSame v kind err eip else s.enteredReal v eip

/-- The inner stack of level `lvl` that the TSS gives: SS and ESP (43_control_transfer.md R591). -/
def State.tssStackAt (s : State) (lvl : BitVec 2) : Word × Dword :=
  (s.valueAt 16 (addrsFrom (s.tr.base + BitVec.ofNat 32 (8 * lvl.toNat + 8)) 2),
    s.valueAt 32 (addrsFrom (s.tr.base + BitVec.ofNat 32 (8 * lvl.toNat + 4)) 4))

/-- The state on the inner stack: the level, SS and ESP (60_exceptions.md R940). -/
def State.onInner (s : State) (lvl : BitVec 2) (sel : Word) (sd : Desc) (esp : Dword) : State :=
  ((({ s with cpl := lvl } : State).accessed sd).setSeg .ss (sd.toSeg sel)).setSp esp

/-- The state after an exception of a program at an outer level is delivered on the inner stack: SS and ESP of the
program, the frame, then the handler (60_exceptions.md R940, R941, R947). -/
def State.enteredInner (s : State) (g d sd : Desc) (flags eip : Dword) (err : Option Word) : State :=
  let sel := (s.tssStackAt d.dpl).1
  let t := (s.drawn (2 + errCount err)).onInner d.dpl sel sd (s.tssStackAt d.dpl).2
  let vs := ((s.any 0).setWidth 16 ++ s.segs.ss.sel) :: s.gpr .esp :: s.frame 1 flags eip err
  let u := (t.pushedAll 4 vs).enterCode g.gateSel d.dpl d g.gateOff
  { u with eflags := entryFlags s.eflags (g.typ == 14) }

/-- The checks on the inner stack pass (60_exceptions.md R940, 43_control_transfer.md R590). -/
def State.innerFits (s : State) (lvl : BitVec 2) (sd : Desc) (count : Nat) : Bool :=
  let sel := (s.tssStackAt lvl).1
  s.tssRam && decide (8 * lvl.toNat + 11 ≤ s.tr.limit.toNat) && !isNull sel && rpl sel == lvl && sd.dpl == lvl &&
    sd.writableData && sd.p && (sd.toSeg sel).room (s.tssStackAt lvl).2 4 count

/-- The exception that the inner stack of level `lvl` raises where it is to take `count` doublewords
(43_control_transfer.md R590, R591). -/
def State.innerFault (s : State) (lvl : BitVec 2) (count : Nat) : Option (Byte × Word) :=
  let nss := (s.tssStackAt lvl).1
  if s.tr.limit.toNat < 8 * lvl.toNat + 11 then some (10, selCode s.tr.sel)
  else if isNull nss then some (10, selCode nss)
  else
    match s.descFor nss with
    | none => some (10, selCode nss)
    | some sd =>
      if rpl nss != lvl || sd.dpl != lvl || !sd.writableData then some (10, selCode nss)
      else if !sd.p || !(sd.toSeg nss).room (s.tssStackAt lvl).2 4 count then some (12, selCode nss)
      else none

/-- A code segment that a call gate may not lead to: a JMP reaches nonconforming code of its own level only
(43_control_transfer.md R587). -/
def State.targetDenied (s : State) (call : Bool) (d : Desc) : Bool :=
  if !call && !d.conforming then d.dpl != s.cpl else decide (s.cpl.toNat < d.dpl.toNat)

/-- The exception of a far JMP or CALL through the call gate `g`, named by `gsel`, before anything is pushed; none where it
goes on (43_control_transfer.md R587, R588, R590). -/
def State.gateFault (s : State) (call : Bool) (gsel : Word) (g : Desc) : Option (Byte × Word) :=
  if s.useDenied gsel g then some (13, selCode gsel)
  else if !g.p then some (11, selCode gsel)
  else if isNull g.gateSel then some (13, 0)
  else
    match s.descFor g.gateSel with
    | none => some (13, selCode g.gateSel)
    | some d =>
      if !d.isCode || s.targetDenied call d then some (13, selCode g.gateSel)
      else if !d.p then some (11, selCode g.gateSel)
      else
        let past : Option (Byte × Word) := if d.limit32.toNat < g.gateOff.toNat then some (13, 0) else none
        if call && !d.conforming && d.dpl != s.cpl then (s.innerFault d.dpl (4 + g.gateCount.toNat)).or past else past

/-- The exception of a far JMP or CALL through the task gate `g`, named by `gsel`, in the outgoing task; none where it goes
on (47_multitasking.md R866, R871). -/
def State.taskGateFault (s : State) (gsel : Word) (g : Desc) : Option (Byte × Word) :=
  if s.useDenied gsel g then some (13, selCode gsel)
  else if !g.p then some (11, selCode gsel)
  else if isNull g.gateSel then some (13, 0)
  else if ti g.gateSel then some (13, selCode g.gateSel)
  else
    match s.descFor g.gateSel with
    | none => some (13, selCode g.gateSel)
    | some d =>
      if !d.s && (d.typ == 1 || d.typ == 3) then none
      else if d.s || d.typ != 9 then some (13, selCode g.gateSel)
      else if !d.p then some (11, selCode g.gateSel)
      else if d.limit32.toNat < 103 then some (10, selCode g.gateSel)
      else none

/-- The state after a CALL through a gate to an inner level: SS and ESP of the caller, the parameters and the return
address stand on the inner stack (43_control_transfer.md R590, R592). -/
def State.calledInner (s : State) (g d sd : Desc) : State :=
  let t := (s.drawn 2).onInner d.dpl (s.tssStackAt d.dpl).1 sd (s.tssStackAt d.dpl).2
  let vs := ((s.any 0).setWidth 16 ++ s.segs.ss.sel) :: s.gpr .esp :: s.params g.gateCount.toNat ++
    [(s.any 1).setWidth 16 ++ s.segs.cs.sel, s.nextEip]
  (t.pushedAll 4 vs).enterCode g.gateSel d.dpl d g.gateOff

/-- Vector `v` is delivered on an inner stack: its gate `g` may be used, leads to the present, nonconforming code segment
`d` of an inner level, and the stack segment `sd` that the TSS gives for that level takes the frame (60_exceptions.md
R940, 43_control_transfer.md R591). -/
def State.entersInner (s : State) (v : Byte) (kind : EventKind) (err : Option Word) (g d sd : Desc) : Prop :=
  s.pe = true ∧ s.gateFor v = some g ∧ s.gateFits g kind = true ∧ s.descFor g.gateSel = some d ∧
    (d.isCode && d.p && !d.conforming && decide (d.dpl.toNat < s.cpl.toNat ∧ g.gateOff.toNat ≤ d.limit32.toNat)) = true ∧
    s.descFor (s.tssStackAt d.dpl).1 = some sd ∧ s.innerFits d.dpl sd (5 + errCount err) = true ∧
    ((s.drawn (2 + errCount err)).onInner d.dpl (s.tssStackAt d.dpl).1 sd (s.tssStackAt d.dpl).2).canPushAll 4
      (5 + errCount err) = true

/-! ## Task switches, paging off -/

/-- The `n` bytes from the linear address `la` on are RAM. -/
def State.ramAt (s : State) (la : Dword) (n : Nat) : Bool := (addrsFrom la n).all fun pa => s.kindAt pa.toNat == .ram

/-- The state after the `n` low bytes of `v` are stored from the linear address `la` on. -/
def State.putAt (s : State) (la : Dword) (n : Nat) {w : Nat} (v : BitVec w) : State :=
  s.storeBytes (addrsFrom la n) (leBytes n v)

/-- The state after the byte at `la` is changed. -/
def State.changeAt (s : State) (la : Dword) (f : Byte → Byte) : State := s.putAt la 1 (f (s.byteAt la))

/-- The fixed part of a TSS: 104 bytes (47_multitasking.md R841). -/
def State.tssImage (s : State) (base : Dword) : List Byte := (addrsFrom base 104).map s.byteAt

/-- The state after the outgoing task is saved in its TSS (47_multitasking.md R872). -/
def State.taskSaved (s : State) (eip flags : Dword) : State :=
  let g := s.gprs
  let dwords : List (Nat × Dword) :=
    [(0x20, eip), (0x24, flags), (0x28, g.eax), (0x2C, g.ecx), (0x30, g.edx), (0x34, g.ebx), (0x38, g.esp), (0x3C, g.ebp),
      (0x40, g.esi), (0x44, g.edi)]
  let words : List (Nat × Word) :=
    [(0x48, s.segs.es.sel), (0x4C, s.segs.cs.sel), (0x50, s.segs.ss.sel), (0x54, s.segs.ds.sel), (0x58, s.segs.fs.sel),
      (0x5C, s.segs.gs.sel)]
  let t := dwords.foldl (fun u f => u.putAt (s.tr.base + BitVec.ofNat 32 f.1) 4 f.2) s
  words.foldl (fun u f => u.putAt (s.tr.base + BitVec.ofNat 32 f.1) 2 f.2) t

/-- The access byte of the TSS descriptor of the current task (47_multitasking.md R873). -/
def State.oldAccess (s : State) : Dword := s.gdtr.base + (s.tr.sel &&& 0xFFF8).setWidth 32 + 5

/-- The state after steps C to E: the outgoing task is saved, with NT clear for IRET; the new TSS is busy; after JMP and IRET
the old one is not; TR holds the new TSS and TS is set; CALL and interrupts link the new TSS back to the old
(47_multitasking.md R872 to R874). -/
def State.taskLeft (s : State) (nsel : Word) (d : Desc) (k : SwitchKind) (eip flags : Dword) : State :=
  let chain := k == .call || k == .int
  let t := s.taskSaved eip (if k = .iret then flags &&& ~~~0x4000#32 else flags)
  let t := if k = .iret then t else t.changeAt (d.addr + 5) (· ||| 2)
  let t := if chain then t else t.changeAt s.oldAccess (· &&& 0xFD)
  let t := { t with tr := { sel := nsel, base := d.base, limit := d.limit32, valid := true }, cr0 := t.cr0 ||| 8 }
  if chain then t.putAt d.base 2 s.tr.sel else t

/-- The state after step F: the registers hold what the image `t` of the new TSS holds, CR3 only with paging on, which
empties the TLB; NT is set after CALL and interrupts; nothing is valid behind the selectors yet (47_multitasking.md R873,
R875). -/
def State.taskEntered (s : State) (k : SwitchKind) (t : List Byte) : State :=
  let dword (off : Nat) : Dword := leVal 32 ((t.drop off).take 4)
  let word (off : Nat) : Word := leVal 16 ((t.drop off).take 2)
  let seg (old : SegReg) (off : Nat) : SegReg := { old with sel := word off, valid := false }
  let flags := (dword 0x24 &&& 0x37FD5) ||| 2
  { s with
    cr3 := if s.pg then dword 0x1C else s.cr3
    tlb := if s.pg then s.tlb.map fun e => { e with v := false } else s.tlb
    tlbDup := if s.pg then [] else s.tlbDup
    eip := dword 0x20
    eipOver := false
    eflags := if k = .call ∨ k = .int then flags ||| 0x4000 else flags
    gprs :=
      { eax := dword 0x28, ecx := dword 0x2C, edx := dword 0x30, ebx := dword 0x34, esp := dword 0x38, ebp := dword 0x3C,
        esi := dword 0x40, edi := dword 0x44 }
    segs :=
      { es := seg s.segs.es 0x48, cs := seg s.segs.cs 0x4C, ss := seg s.segs.ss 0x50, ds := seg s.segs.ds 0x54
        fs := seg s.segs.fs 0x58, gs := seg s.segs.gs 0x5C }
    ldtr := { s.ldtr with sel := word 0x60, valid := false }
    cpl := (word 0x4C).extractLsb' 0 2
    dr7 := s.dr7 &&& 0xFFFFFFAA
    prefetch := []
    ctx := { s.ctx with keepRF := true } }

/-- A check of the new task: the state it leaves, or the state in which an exception is taken, its vector and its error
code. -/
abbrev TaskCheck : Type := Except (State × Byte × Word) State

/-- Step G for the LDT (47_multitasking.md R876). -/
def State.taskLdt (s : State) : TaskCheck :=
  let l := s.ldtr.sel
  if isNull l then .ok s
  else
    match s.descFor l with
    | some d =>
      if !ti l && !d.s && d.typ == 2 && d.p then
        .ok { s with ldtr := { sel := l, base := d.base, limit := d.limit32, valid := true } }
      else .error (s, 10, selCode l)
    | none => .error (s, 10, selCode l)

/-- The segment `d` may not be loaded into a segment register of the new task (47_multitasking.md R876). -/
def State.taskDenied (s : State) (r : Sreg) (x : Word) (d : Desc) : Bool :=
  match r with
  | .cs => !d.isCode || returnDenied x d
  | .ss => rpl x != s.cpl || !d.writableData || d.dpl != s.cpl
  | .ds | .es | .fs | .gs => !d.readable || s.dataDenied x d

/-- Step G for a segment register (47_multitasking.md R876). -/
def State.taskSeg (r : Sreg) (s : State) : TaskCheck :=
  let x := (s.seg r).sel
  if isNull x then (if r = .cs ∨ r = .ss then .error (s, 10, selCode x) else .ok s)
  else
    match s.descFor x with
    | none => .error (s, 10, selCode x)
    | some d =>
      if s.taskDenied r x d then .error (s, 10, selCode x)
      else if !d.p then .error (s, if r = .ss then 12 else 11, selCode x)
      else .ok ((s.accessed d).setSeg r (d.toSeg x))

/-- Step H: EIP inside CS (47_multitasking.md R877). -/
def State.taskEip (s : State) : TaskCheck := if s.inCode s.eip then .ok s else .error (s, 13, 0)

/-- Steps G and H, in order (47_multitasking.md R876, R877). -/
def State.taskChecked (s : State) : TaskCheck :=
  ((((((s.taskLdt.bind (State.taskSeg .cs)).bind (State.taskSeg .ss)).bind (State.taskSeg .ds)).bind
    (State.taskSeg .es)).bind (State.taskSeg .fs)).bind (State.taskSeg .gs)).bind State.taskEip

/-- The switch to the TSS that `nsel` and `d` name, steps C to H: the new task, ready, or the exception taken in it
(47_multitasking.md R870). -/
def State.switchTo (s : State) (nsel : Word) (d : Desc) (k : SwitchKind) (eip flags : Dword) : TaskCheck :=
  ((s.taskLeft nsel d k eip flags).taskEntered k (s.tssImage d.base)).taskChecked

/-- The switch gets past its commit point: both TSSs are whole and in RAM, and so are the descriptors it marks; the new task
is no virtual-8086 task (47_multitasking.md R870, R871, R875). -/
def State.canSwitch (s : State) (d : Desc) (k : SwitchKind) : Bool :=
  !s.pg && decide (103 ≤ d.limit32.toNat ∧ 103 ≤ s.tr.limit.toNat) && s.ramAt d.base 104 && s.ramAt s.tr.base 104 &&
    s.ramAt (d.addr + 5) 1 && (k == .call || k == .int || s.ramAt s.oldAccess 1) &&
    !(leVal 32 (((s.tssImage d.base).drop 0x24).take 4) : Dword).getLsbD 17

/-- Step I: the T bit of the new TSS makes the debug trap pending (47_multitasking.md R878). -/
def State.taskTrap (s : State) (t : List Byte) : State :=
  if (leVal 16 ((t.drop 0x64).take 2) : Word).getLsbD 0 then
    { s with trapPending := true, dr6 := s.dr6 ||| 0x8000 }
  else s

/-- The error code of an exception can be pushed on the stack of the new task (47_multitasking.md R879). -/
def State.canErr (s : State) (err : Option Word) : Bool := err.isNone || s.canPush 4

/-- The state after it is pushed, its upper half open (47_multitasking.md R879). -/
def State.withErr (s : State) (err : Option Word) : State :=
  match err with
  | none => s
  | some e => (s.drawn 1).pushed 4 ((s.any 0).setWidth 16 ++ e)

/-- A 386 TSS that is free and present: LTR accepts it, and a JMP, a CALL or an interrupt may switch to it
(47_multitasking.md R860, R866). -/
def Desc.isFreeTss (d : Desc) : Bool := !d.s && d.typ == 9 && d.p

/-- The gate `g` of vector `v` is a task gate that the event may use, and names the free TSS of the descriptor `d`; the switch
to it gets past its commit point (60_exceptions.md R940, 47_multitasking.md R866, R870). -/
def State.entersTask (s : State) (v : Byte) (kind : EventKind) (g d : Desc) : Prop :=
  s.pe = true ∧ s.gateFor v = some g ∧
    (!g.s && g.typ == 5 && g.p && (kind != .software || decide (s.cpl.toNat ≤ g.dpl.toNat)) && !isNull g.gateSel &&
      !ti g.gateSel) = true ∧
    s.descFor g.gateSel = some d ∧ d.isFreeTss = true ∧ s.canSwitch d .int = true

/-! ## System instructions -/

/-- The descriptor that LAR, LSL, VERR and VERW look at (46_system.md R814). -/
def State.probed (s : State) (sel : Word) : Option Desc := if isNull sel then none else s.descFor sel

/-- The value LGDT and LIDT load (46_system.md R772, R773). -/
def State.tableAt (s : State) (m : Mem) : TableReg :=
  let base : Dword := s.load (s.effSeg m) (s.effOff m + 2) 4 32
  { base := if s.o32 then base else base &&& 0x00FFFFFF, limit := s.load (s.effSeg m) (s.effOff m) 2 16 }

/-- The state after SGDT or SIDT: the sixth byte is open with a 16-bit operand size (46_system.md R774, R775). -/
def State.tableStored (s : State) (m : Mem) (t : TableReg) : State :=
  let put (u : State) (base : Dword) : State :=
    (u.store (s.effSeg m) (s.effOff m) 2 t.limit).store (s.effSeg m) (s.effOff m + 2) 4 base
  if s.o32 then put s t.base
  else put (s.drawn 1) (((s.any 0).setWidth 8 : Byte) ++ (t.base.setWidth 24 : BitVec 24))

/-- An LDT descriptor that LLDT accepts (46_system.md R776). -/
def Desc.isLdt (d : Desc) : Bool := !d.s && d.typ == 2 && d.p

/-- What LDTR or TR holds after it is loaded (46_system.md R776, 47_multitasking.md R860). -/
def Desc.toSys (d : Desc) (sel : Word) : SysSeg := { sel := sel, base := d.base, limit := d.limit32, valid := true }

/-- The exception that LLDT raises for the selector `sel`; none where it loads LDTR (46_system.md R776). -/
def State.lldtFault (s : State) (sel : Word) : Option (Byte × Word) :=
  if isNull sel then none
  else if ti sel then some (13, selCode sel)
  else
    match s.descFor sel with
    | none => some (13, selCode sel)
    | some d => if d.s || d.typ != 2 then some (13, selCode sel) else if !d.p then some (11, selCode sel) else none

/-- The exception that LTR raises for the selector `sel`, a busy TSS among the wrong types; none where it loads TR, and for an
80286 TSS (47_multitasking.md R860). -/
def State.ltrFault (s : State) (sel : Word) : Option (Byte × Word) :=
  if isNull sel then some (13, 0)
  else if ti sel then some (13, selCode sel)
  else
    match s.descFor sel with
    | none => some (13, selCode sel)
    | some d =>
      if !d.s && d.typ == 1 then none
      else if d.s || d.typ != 9 then some (13, selCode sel)
      else if !d.p then some (11, selCode sel)
      else none

/-! ## The TLB lookup command -/

/-- A pair of TR6 bits admits the bit `b` of an entry: it names the value of `b`, or, with its two bits equal, as the open
value `x` decides (20_memory.md R273). -/
def pairAdmits (pair : BitVec 2) (b x : Bool) : Bool := if pair = 1 then !b else if pair = 2 then b else x

/-- Way `way` of the set that the command word `v` selects matches it: tag, V, and the pairs for D, U and W; each way has an
open value of its own (20_memory.md R272, R273, log 21). -/
def State.wayMatches (s : State) (v : Dword) (way : Nat) : Bool :=
  let e := s.tlbEntry v way
  let x := s.any (1 + way)
  e.tag == tlbTag v && e.v == v.getLsbD 11 && pairAdmits (v.extractLsb' 9 2) e.d (x.getLsbD 0) &&
    pairAdmits (v.extractLsb' 7 2) e.u (x.getLsbD 1) && pairAdmits (v.extractLsb' 5 2) e.w (x.getLsbD 2)

/-- The command word `v` with its attribute pairs set from the entry found: D, U and W, each with its complement
(20_memory.md R272). -/
def TlbEntry.foundIn (e : TlbEntry) (v : Dword) : Dword :=
  let pair (b : Bool) (i : Nat) : Dword := if b then BitVec.ofNat 32 (2 * 2 ^ i) else BitVec.ofNat 32 (2 ^ i)
  (v &&& 0xFFFFF81F) ||| pair e.d 9 ||| pair e.u 7 ||| pair e.w 5

/-! ## Prefixes and LOCK -/

/-- What a prefix notes in the decode context (30_encoding.md R306 to R311). -/
def prefixNote : Instr → Option (Ctx → Ctx)
  | .pfxES => some fun c => { c with seg := some .es }
  | .pfxCS => some fun c => { c with seg := some .cs }
  | .pfxSS => some fun c => { c with seg := some .ss }
  | .pfxDS => some fun c => { c with seg := some .ds }
  | .pfxFS => some fun c => { c with seg := some .fs }
  | .pfxGS => some fun c => { c with seg := some .gs }
  | .pfxOpSize => some fun c => { c with op66 := true }
  | .pfxAddrSize => some fun c => { c with ad67 := true }
  | .pfxLock => some fun c => { c with lock := true }
  | .pfxRepne => some fun c => { c with rep := some .repne }
  | .pfxRep => some fun c => { c with rep := some .rep }
  | _ => none

/-- LOCK is accepted: a read-modify-write form with its destination in memory (30_encoding.md R308). -/
def lockable (i : Instr) : Bool :=
  match binary8 i, binaryV i, unary8 i, unaryV i, bitChangeForm i with
  | some (_, e, _), _, _, _, _ => isMem e
  | _, some (_, e, _), _, _, _ => isMem e
  | _, _, some (_, e), _, _ => isMem e
  | _, _, _, some (_, e), _ => isMem e
  | _, _, _, _, some (_, e, _) => isMem e
  | _, _, _, _, _ =>
    match i with
    | .xchgEbGb e _ => isMem e
    | .xchgEvGv e _ => isMem e
    | _ => false

/-! ## Fetching -/

/-- The bytes `bs` of one instruction, none of whose shorter beginnings is one, stand in RAM at CS:EIP and will be
fetched from there: paging is off, execution has not run over, they are inside the limit of CS and, in real-address mode,
do not run past FFFFH, and the prefetch queue holds no older copy (10_state.md R52; 20_memory.md R204, R250;
30_encoding.md R302, R303). -/
def State.codeReady (s : State) (bs : List Byte) : Prop :=
  s.pg = false ∧ s.eipOver = false ∧ bs.length ≤ 15 ∧
    (addrsFrom (s.segs.cs.base + s.eip) bs.length).map s.byteAt = bs ∧
    ∀ k < bs.length, s.eip.toNat + k ≤ s.segs.cs.limit.toNat ∧
      (s.pe = true ∨ s.segs.cs.db = true ∨ 0xFFFF < s.eip.toNat ∨ s.eip.toNat + k ≤ 0xFFFF) ∧
      s.staleCopies (s.eip + BitVec.ofNat 32 k) = [] ∧
      s.kindAt (s.segs.cs.base + s.eip + BitVec.ofNat 32 k).toNat = .ram ∧
      decode s.decodeCtx (bs.take k) = .error .short

/-- The state in which a fetched instruction of `len` bytes runs: the shadows of the instruction before it are over
(60_exceptions.md R915), its length is known, and the bytes after it are prefetched (20_memory.md R250). -/
def State.fetched (s : State) (len : Nat) : State :=
  (State.begin { s with inhibitSS := false, inhibitSTI := false, trapPending := false } len).refill

/-! ## Paging -/

/-- The address of the page-directory entry of a linear address (20_memory.md R221, R230). -/
def State.pdeAt (s : State) (la : Dword) : Dword := s.cr3.extractLsb' 12 20 ++ la.extractLsb' 22 10 ++ 0#2

/-- The page-directory entry of a linear address. -/
def State.pde (s : State) (la : Dword) : Dword := s.peekD (s.pdeAt la)

/-- The address of the page-table entry of a linear address (20_memory.md R222, R230). -/
def State.pteAt (s : State) (la : Dword) : Dword := (s.pde la).extractLsb' 12 20 ++ la.extractLsb' 12 10 ++ 0#2

/-- The page-table entry of a linear address. -/
def State.pte (s : State) (la : Dword) : Dword := s.peekD (s.pteAt la)

/-- A doubleword of RAM. -/
def State.ramD (s : State) (pa : Dword) : Prop := ∀ a ∈ addrsFrom pa 4, s.kindAt a.toNat = .ram

/-- A user access that the page's protection forbids (20_memory.md R227, R228). -/
def State.pageForbids (s : State) (la : Dword) (write user : Bool) : Bool :=
  let u := (s.pde la).getLsbD 2 && (s.pte la).getLsbD 2
  let w := (s.pde la).getLsbD 1 && (s.pte la).getLsbD 1
  user && (!u || (write && !w))

/-- The error code of a page fault (20_memory.md R232). -/
def pageCode (present write user : Bool) : Word := bitVal present ||| bitVal write <<< 1 ||| bitVal user <<< 2

end Sys2Proof.Machine
end

