-- ==== Sys2Proof/Certificates/Slice0/Obligations.lean ====
section
/-! DEFINITION. The statements about the machine, for the provers. A result statement is an equation between `exec` and a
next state in which every field that is not named stands as in `s`: it says what the instruction changes and, at once,
its frame. Hypotheses speak of the state and the operands alone: which operands can be reached (`ok8`, `okV`,
`reachable`: paging off, the segment checks of 20_memory.md R200, RAM), privilege, and no LOCK prefix where LOCK is not
accepted. -/

open Sys2Proof Sys2Proof.Machine

/-! ## Encoding and stepping -/

/-- Words written out from the encodings of 30_encoding.md decode to the instruction they stand for: cases of
96_derived_vectors.md V30. -/
def Obligations.DecodesWordsOfTheSpec : Prop :=
  decode { d32 := true } [0x8B, 0x00] = .ok ([.movGvEv .eax (.mem (.m32 (.based .eax .none)))], []) ∧
  decode { d32 := false } [0x8B, 0x42, 0x10] = .ok ([.movGvEv .eax (.mem (.m16 (.based .bpsi (.d8 0x10))))], []) ∧
  decode { d32 := true } [0x66, 0x67, 0x8B, 0x00] =
    .ok ([.pfxOpSize, .pfxAddrSize, .movGvEv .eax (.mem (.m16 (.based .bxsi .none)))], []) ∧
  decode { d32 := true } [0x8B, 0x04, 0x8D, 0x00, 0x10, 0x00, 0x00] =
    .ok ([.movGvEv .eax (.mem (.m32 (.sibNoBase 2 .ecx 0x1000)))], []) ∧
  decode { d32 := true } [0xEA, 0x00, 0x00, 0x02, 0x00, 0x08, 0x00] = .ok ([.jmpAp 0x20000 8], []) ∧
  decode { d32 := true } [0x0F, 0x01, 0x13] = .ok ([.lgdtMs (.m32 (.based .ebx .none))], []) ∧
  decode { d32 := true } [0xF0, 0x01, 0x03] = .ok ([.pfxLock, .addEvGv (.mem (.m32 (.based .ebx .none))) .eax], []) ∧
  decode { d32 := true } [0x0F, 0xFF] = .error (.undefined "no such opcode")

/-- Decoding what the encoder writes for any well-formed instruction gives the instruction back, with every operand,
under any default size and any size prefix, and leaves the bytes that follow. -/
def Obligations.DecodeOfEncode : Prop :=
  ∀ (c : DecodeCtx) (i : Instr) (rest : List Byte), i.wf c = true →
    (decodeOne c).run (encode c i ++ rest) = .ok (i, rest)

/-- A step with no event waiting fetches the instruction at CS:EIP and runs its items in order, the prefixes first; an
instruction without prefixes runs as `exec` of it. The state it runs in differs from `s` in the decode context, the
prefetch queue and the shadows that end. -/
def Obligations.StepRunsDecodedInstruction : Prop :=
  ∀ (s : State) (bs : List Byte) (items : List Instr), s.resetPin = false → s.run = .running → s.pendingEvent = none →
    s.codeReady bs → decode s.decodeCtx bs = .ok (items, []) →
    step s = runItems exec items (s.fetched bs.length) ∧ ∀ i, items = [i] → step s = exec i (s.fetched bs.length)

/-- Each of the eleven prefixes is noted in the decode context, and nothing else happens. LOCK before any instruction that
does not accept it raises the invalid-opcode exception; the instruction has no effect. -/
def Obligations.PrefixesAndLock : Prop :=
  (∀ (i : Instr) (f : Ctx → Ctx) (s : State), prefixNote i = some f → exec i s = .next { s with ctx := f s.ctx }) ∧
  ∀ (i : Instr) (s : State), s.ctx.lock = true → lockable i = false → prefixNote i = none → exec i s = s.trapped 6 none

/-! ## Reset and invariants -/

/-- After reset: EFLAGS, EIP and the first fetch, IDTR, the six segment registers, the mode, the level and the interrupt
mask. -/
def Obligations.ResetState : Prop :=
  State.reset.eflags = 2 ∧ State.reset.if' = false ∧ State.reset.eflags.getLsbD 17 = false ∧
  State.reset.eip = 0xFFF0 ∧ State.reset.segs.cs.base + State.reset.eip = 0xFFFFFFF0 ∧
  State.reset.idtr = { base := 0, limit := 0x3FF } ∧
  State.reset.segs.cs =
    { sel := 0xF000, base := 0xFFFF0000, limit := 0xFFFF, typ := 3, s := true, dpl := 0, p := true, db := false,
      g := false, valid := true } ∧
  (∀ r, r ≠ .cs → State.reset.seg r =
    { sel := 0, base := 0, limit := 0xFFFF, typ := 3, s := true, dpl := 0, p := true, db := false, g := false,
      valid := true }) ∧
  State.reset.pe = false ∧ State.reset.cpl = 0 ∧ State.reset.nmiLatch = false

/-- A RESET request is served before anything else at a boundary: the registers are as after reset, and memory, the
history of accesses and the requests of the environment stay (logs 1 and 22 name the model's choices). -/
def Obligations.ResetRequestServed : Prop :=
  ∀ s : State, s.resetPin = true →
    step s = .next { State.reset with
      mem := s.mem, physMap := s.physMap, ioLog := s.ioLog, freeCtr := s.freeCtr, intr := s.intr, nmi := s.nmi }

/-- The invariant holds after reset. -/
def Obligations.InvariantAfterReset : Prop := State.reset.Inv ∧ State.reset.levelLegal ∧ State.reset.ctx = Ctx.empty

/-- Every step, exceptions and events included, keeps the canonical form of memory, the fixed bits of EFLAGS and VM at 0,
PG off outside protected mode, DR7 without an enabled breakpoint, and a TLB of 32 entries. -/
def Obligations.StepKeepsInvariant : Prop :=
  ∀ s t : State, s.Inv → step s = .next t → t.Inv

/-- Every step keeps real-address mode at level 0. -/
def Obligations.StepKeepsRealModeLevel : Prop :=
  ∀ s t : State, s.levelLegal → step s = .next t → t.levelLegal

/-- No step takes back what the environment saw, nor reuses a free value. -/
def Obligations.StepExtendsHistory : Prop :=
  ∀ s t : State, step s = .next t → s.ioLog <+: t.ioLog ∧ s.freeCtr ≤ t.freeCtr

/-! ## Memory, segments, paging -/

/-- A value stored in RAM reads back from the same bytes, low byte at the lowest address, and no other byte changes. -/
def Obligations.StoredValueReadsBack : Prop :=
  ∀ (s : State) (la : Dword) (n : Nat) (v : BitVec (8 * n)), Memory.wf s.mem = true → n ≤ 2 ^ 32 →
    (∀ pa ∈ addrsFrom la n, s.kindAt pa.toNat = .ram) →
    let t := s.storeBytes (addrsFrom la n) (leBytes n v)
    t.valueAt (8 * n) (addrsFrom la n) = v ∧
    (∀ i < n, t.byteAt (la + BitVec.ofNat 32 i) = v.extractLsb' (8 * i) 8) ∧
    ∀ pa, pa ∉ addrsFrom la n → t.byteAt pa = s.byteAt pa

/-- The limit check of an access of `n` bytes is a check of each of its bytes: below the limit in an expand-up segment,
above it and below the top in an expand-down one. -/
def Obligations.LimitCheckIsBytewise : Prop :=
  ∀ (g : SegReg) (off : Dword) (n : Nat), 0 < n →
    let down := !g.typ.getLsbD 3 && g.typ.getLsbD 2
    (g.inLimit off n = true ↔
      ∀ k < n,
        if down then g.limit.toNat < off.toNat + k ∧ off.toNat + k ≤ (if g.db then 0xFFFFFFFF else 0xFFFF)
        else off.toNat + k ≤ g.limit.toNat)

/-- An access through a segment register that is not valid, or of a kind its type forbids, is a general protection fault;
one outside the limit is a stack fault through SS and a general protection fault through the others. Nothing changes
before the fault. -/
def Obligations.SegmentChecksFault : Prop :=
  ∀ (s : State) (r : Sreg) (off : Dword) (n : Nat) (w : Bool),
    let fault (v : Byte) : EStateM.Result Stop Tx (List Dword) :=
      .error (.raise { vec := v, err := some 0 }) (Tx.start s)
    ((s.seg r).valid = false → memPlan r off n w (Tx.start s) = fault 13) ∧
    ((s.seg r).valid = true → ((s.seg r).allows w || (r == .cs && !s.pe)) = false →
      memPlan r off n w (Tx.start s) = fault 13) ∧
    ((s.seg r).valid = true → ((s.seg r).allows w || (r == .cs && !s.pe)) = true → (s.seg r).inLimit off n = false →
      memPlan r off n w (Tx.start s) = fault (if r = .ss then 12 else 13))

/-- With paging on, a linear address that both table levels map and protection allows becomes the frame and the low 12 bits
where no TLB entry holds it, and where a write hits an entry whose D is 0: both table entries are marked accessed, the
page-table entry dirty as well on a write, no other byte changes, and the TLB holds what the walk found. An entry that is
hit may vanish, as the open value drawn at the hit decides: then the address is walked as if it had not been there; an
entry that stays and allows the access gives its frame, and nothing is read. -/
def Obligations.PageTablesTranslate : Prop :=
  ∀ (s : State) (la : Dword) (write user : Bool), s.pg = true → s.tlbDup.contains (tlbTag la) = false →
    let offset := la.extractLsb' 0 12
    let walked (way : Nat) : Prop :=
      ∃ t, translate la write user (Tx.start s) = .ok ((s.pte la).extractLsb' 12 20 ++ offset) t ∧
      t.cur.byteAt (s.pdeAt la) = s.byteAt (s.pdeAt la) ||| 0x20 ∧
      t.cur.byteAt (s.pteAt la) = s.byteAt (s.pteAt la) ||| (if write then 0x60 else 0x20) ∧
      (∀ pa, pa ≠ s.pdeAt la → pa ≠ s.pteAt la → t.cur.byteAt pa = s.byteAt pa) ∧
      t.cur.gprs = s.gprs ∧ t.cur.segs = s.segs ∧ t.cur.eflags = s.eflags ∧ t.cur.ioLog = s.ioLog ∧
      t.cur.freeCtr = s.freeCtr + 1 ∧
      t.cur.tlbEntry la way =
        { tag := la.extractLsb' 12 20, v := true, d := (s.pte la).getLsbD 6 || write
          u := (s.pde la).getLsbD 2 && (s.pte la).getLsbD 2, w := (s.pde la).getLsbD 1 && (s.pte la).getLsbD 1
          frame := (s.pte la).extractLsb' 12 20 }
    let vanished (way : Nat) : Prop :=
      translate la write user (Tx.start s) =
        translate la write user
          (Tx.start ((s.drawn 1).setTlbEntry la way { s.tlbEntry la way with v := false }))
    (Memory.wf s.mem = true → s.tlb.length = 32 → s.ramD (s.pdeAt la) → s.ramD (s.pteAt la) →
      s.pdeAt la ≠ s.pteAt la → (s.pde la).getLsbD 0 = true → (s.pte la).getLsbD 0 = true →
      s.pageForbids la write user = false →
      (s.tlbHits la = [] → walked ((s.any 0).toNat % 4)) ∧
      ∀ way, s.tlbHits la = [way] → write = true → (s.tlbEntry la way).d = false →
        if (s.any 0).getLsbD 0 then vanished way else walked way) ∧
    ∀ way, s.tlbHits la = [way] →
      let e := s.tlbEntry la way
      (write = true → e.d = true) → (user = true → e.u = true ∧ (write = true → e.w = true)) →
        if (s.any 0).getLsbD 0 then vanished way
        else
          translate la write user (Tx.start s) =
            .ok (e.frame ++ offset) { Tx.start s with cur := s.drawn 1, base := s.drawn 1 }

/-- A linear address that is not mapped, or that protection forbids, raises the page fault with the code of the access
and leaves the address in CR2, for good; so does a hit in the TLB whose cached protection forbids the access, unless
the entry vanishes at the hit, as the open value drawn there decides. -/
def Obligations.PageFaultCodes : Prop :=
  ∀ (s : State) (la : Dword) (write user : Bool), s.pg = true → s.tlbDup.contains (tlbTag la) = false →
    let fault (draws : Nat) (present : Bool) : EStateM.Result Stop Tx Dword :=
      .error (.raise { vec := 14, err := some (pageCode present write user) })
        { Tx.start s with cur := { s.drawn draws with cr2 := la }, base := { s.drawn draws with cr2 := la } }
    (s.tlbHits la = [] → s.ramD (s.pdeAt la) →
      ((s.pde la).getLsbD 0 = false → translate la write user (Tx.start s) = fault 0 false) ∧
      ((s.pde la).getLsbD 0 = true → s.ramD (s.pteAt la) → (s.pte la).getLsbD 0 = false →
        translate la write user (Tx.start s) = fault 0 false) ∧
      ((s.pde la).getLsbD 0 = true → s.ramD (s.pteAt la) → (s.pte la).getLsbD 0 = true →
        s.pageForbids la write user = true → translate la write user (Tx.start s) = fault 0 true)) ∧
    ∀ way, s.tlbHits la = [way] →
      let e := s.tlbEntry la way
      (write = true → e.d = true) → user = true → (e.u = false ∨ (write = true ∧ e.w = false)) →
      if (s.any 0).getLsbD 0 then
        translate la write user (Tx.start s) =
          translate la write user (Tx.start ((s.drawn 1).setTlbEntry la way { e with v := false }))
      else translate la write user (Tx.start s) = fault 1 true

/-- AX to DI are the low halves of EAX to EDI, AL to BL the lowest bytes and AH to BH the second bytes of EAX to EBX;
writing a part leaves the other bits of its register and every other register. -/
def Obligations.PartialRegisters : Prop :=
  ∀ s : State,
    (∀ (r : Gpr) (v : Word), s.gprLow 16 r = (s.gpr r).extractLsb' 0 16 ∧
      ∀ q, (s.setGprLow r v).gpr q = if q = r then (s.gpr r).extractLsb' 16 16 ++ v else s.gpr q) ∧
    (∀ r : Reg8, s.reg8 r =
      match r with
      | .al => (s.gpr .eax).extractLsb' 0 8
      | .cl => (s.gpr .ecx).extractLsb' 0 8
      | .dl => (s.gpr .edx).extractLsb' 0 8
      | .bl => (s.gpr .ebx).extractLsb' 0 8
      | .ah => (s.gpr .eax).extractLsb' 8 8
      | .ch => (s.gpr .ecx).extractLsb' 8 8
      | .dh => (s.gpr .edx).extractLsb' 8 8
      | .bh => (s.gpr .ebx).extractLsb' 8 8) ∧
    ∀ (r : Reg8) (v : Byte),
      (s.setReg8 r v).reg8 r = v ∧ (∀ q, q ≠ r → (s.setReg8 r v).reg8 q = s.reg8 q) ∧
      ∀ q, ((s.setReg8 r v).gpr q).extractLsb' 16 16 = (s.gpr q).extractLsb' 16 16 ∧
        (q ≠ (Reg8.home r).1 → (s.setReg8 r v).gpr q = s.gpr q)

/-! ## Arithmetic -/

/-- What the six status flags of a sum and of a difference mean: the unsigned result does not fit (for a difference, a
borrow), the signed one does not fit, the low four bits carry (or borrow), the result is zero, negative, of even parity in
its low byte. Of a Boolean result: CF and OF are 0, ZF, SF and PF describe it, AF is open. -/
def Obligations.SumAndDifferenceFlags : Prop :=
  ∀ (n : Nat) (a b : BitVec n) (c : Bool) (x : Dword), 0 < n →
    (let r := addFlags a b c
     r.1.toNat = (a.toNat + b.toNat + c.toNat) % 2 ^ n ∧
     (r.2.cf = true ↔ 2 ^ n ≤ a.toNat + b.toNat + c.toNat) ∧
     (r.2.of = true ↔ r.1.toInt ≠ a.toInt + b.toInt + c.toNat) ∧
     (4 < n → (r.2.af = true ↔ 16 ≤ a.toNat % 16 + b.toNat % 16 + c.toNat)) ∧ r.2.describes r.1) ∧
    (let r := subFlags a b c
     (r.1.toNat : Int) = ((a.toNat : Int) - b.toNat - c.toNat) % 2 ^ n ∧
     (r.2.cf = true ↔ a.toNat < b.toNat + c.toNat) ∧
     (r.2.of = true ↔ r.1.toInt ≠ a.toInt - b.toInt - c.toNat) ∧
     (4 < n → (r.2.af = true ↔ a.toNat % 16 < b.toNat % 16 + c.toNat)) ∧ r.2.describes r.1) ∧
    let f := logicFlags a x
    f.cf = false ∧ f.of = false ∧ f.af = x.getLsbD 4 ∧ f.describes a

/-- ADD, ADC, SUB, SBB, AND, OR and XOR in all their forms: the destination holds the result, the six status flags are
the operation's, LOCK is accepted with a memory destination. -/
def Obligations.BinaryOperations : Prop :=
  (∀ (i : Instr) (op : Alu) (dst : RM Reg8) (src : Src8) (s : State), binary8 i = some (op, dst, src) →
    (s.ctx.lock = true → isMem dst = true) → s.ok8 dst true = true → s.okSrc8 src = true →
    let r := op.result s (s.get8 dst) (s.src8 src)
    exec i s = .next (s.finish (((s.drawn op.draws).put8 dst r.1).setFlags r.2))) ∧
  ∀ (i : Instr) (op : Alu) (dst : RM Gpr) (src : SrcV) (s : State), binaryV i = some (op, dst, src) →
    (s.ctx.lock = true → isMem dst = true) → s.okV s.osz dst true = true → s.okSrcV s.osz src = true →
    let r := op.result s (s.getV s.osz dst) (s.srcV s.osz src)
    exec i s = .next (s.finish (((s.drawn op.draws).putV dst r.1).setFlags r.2))

/-- CMP and TEST in all their forms: the flags of the difference or of the conjunction, and nothing else. -/
def Obligations.Comparisons : Prop :=
  (∀ (i : Instr) (op : Alu) (dst : RM Reg8) (src : Src8) (s : State), compare8 i = some (op, dst, src) →
    s.ctx.lock = false → s.ok8 dst false = true → s.okSrc8 src = true →
    exec i s = .next (s.finish ((s.drawn op.draws).setFlags (op.result s (s.get8 dst) (s.src8 src)).2))) ∧
  ∀ (i : Instr) (op : Alu) (dst : RM Gpr) (src : SrcV) (s : State), compareV i = some (op, dst, src) →
    s.ctx.lock = false → s.okV s.osz dst false = true → s.okSrcV s.osz src = true →
    exec i s = .next (s.finish ((s.drawn op.draws).setFlags (op.result s (s.getV s.osz dst) (s.srcV s.osz src)).2))

/-- INC, DEC, NEG and NOT in all their forms: one more, one less, the negative with CF set unless it is 0, the complement.
INC and DEC keep CF, set OF at the most positive and the most negative value and AF where the low four bits carry or
borrow; NOT changes no flag. -/
def Obligations.UnaryOperations : Prop :=
  (∀ (i : Instr) (op : Unary) (e : RM Reg8) (s : State), unary8 i = some (op, e) →
    (s.ctx.lock = true → isMem e = true) → s.ok8 e true = true →
    let r := op.result s (s.get8 e)
    exec i s = .next (s.finish ((s.put8 e r.1).setFlags r.2))) ∧
  (∀ (i : Instr) (op : Unary) (e : RM Gpr) (s : State), unaryV i = some (op, e) →
    (s.ctx.lock = true → isMem e = true) → s.okV s.osz e true = true →
    let r := op.result s (s.getV s.osz e)
    exec i s = .next (s.finish ((s.putV e r.1).setFlags r.2))) ∧
  ∀ (s : State) (n : Nat) (a : BitVec n), 4 < n →
    (let r := Unary.inc.result s a
     r.1.toNat = (a.toNat + 1) % 2 ^ n ∧ r.2.cf = s.cf ∧ (r.2.of = true ↔ a.toNat + 1 = 2 ^ (n - 1)) ∧
     (r.2.af = true ↔ a.toNat % 16 = 15) ∧ r.2.describes r.1) ∧
    (let r := Unary.dec.result s a
     r.1.toNat = (a.toNat + (2 ^ n - 1)) % 2 ^ n ∧ r.2.cf = s.cf ∧ (r.2.of = true ↔ a.toNat = 2 ^ (n - 1)) ∧
     (r.2.af = true ↔ a.toNat % 16 = 0) ∧ r.2.describes r.1) ∧
    (let r := Unary.neg.result s a
     r.1.toNat = (2 ^ n - a.toNat) % 2 ^ n ∧ (r.2.cf = true ↔ a.toNat ≠ 0) ∧
     (r.2.of = true ↔ a.toNat = 2 ^ (n - 1)) ∧ (r.2.af = true ↔ a.toNat % 16 ≠ 0) ∧ r.2.describes r.1) ∧
    (∀ i < n, (Unary.not.result s a).1.getLsbD i = !a.getLsbD i) ∧ s.setFlags (Unary.not.result s a).2 = s

/-- MUL and IMUL in all their forms: the exact product in AX, in DX:AX or EDX:EAX, or its low half in a register; CF and OF
say whether the product needs more than the low half, the other four status flags are open. -/
def Obligations.Multiplications : Prop :=
  (∀ (n : Nat) (a b : BitVec n), 0 < n →
    (mulU a b).1.toNat = a.toNat * b.toNat ∧ ((mulU a b).2 = true ↔ 2 ^ n ≤ a.toNat * b.toNat) ∧
    (mulS a b).1.toInt = a.toInt * b.toInt ∧ (mulTrunc a b).1 = a * b ∧
    let big : Prop := a.toInt * b.toInt < -(2 : Int) ^ (n - 1) ∨ 2 ^ (n - 1) ≤ a.toInt * b.toInt
    ((mulS a b).2 = true ↔ big) ∧ ((mulTrunc a b).2 = true ↔ big)) ∧
  (∀ (big : Bool) (x : Dword), mulFlags big x =
    { cf := big, of := big, pf := x.getLsbD 2, af := x.getLsbD 4, zf := x.getLsbD 6, sf := x.getLsbD 7 }) ∧
  ∀ (s : State), s.ctx.lock = false →
    (∀ e, s.ok8 e false = true →
      let u := mulU (s.reg8 .al) (s.get8 e)
      let v := mulS (s.reg8 .al) (s.get8 e)
      exec (.mulEb e) s = .next (s.finish (((s.drawn 1).setGprLow .eax u.1).setFlags (mulFlags u.2 (s.any 0)))) ∧
      exec (.imulEb e) s = .next (s.finish (((s.drawn 1).setGprLow .eax v.1).setFlags (mulFlags v.2 (s.any 0))))) ∧
    ∀ e, s.okV s.osz e false = true →
      let u := mulU (s.gprLow s.osz .eax) (s.getV s.osz e)
      let v := mulS (s.gprLow s.osz .eax) (s.getV s.osz e)
      exec (.mulEv e) s = .next (s.finish (((s.drawn 1).setPair s.osz u.1).setFlags (mulFlags u.2 (s.any 0)))) ∧
      exec (.imulEv e) s = .next (s.finish (((s.drawn 1).setPair s.osz v.1).setFlags (mulFlags v.2 (s.any 0)))) ∧
      ∀ g,
        (let p := mulTrunc (s.gprLow s.osz g) (s.getV s.osz e)
         exec (.imulGvEv g e) s =
           .next (s.finish (((s.drawn 1).setGprLow g p.1).setFlags (mulFlags p.2 (s.any 0))))) ∧
        (∀ iv : Dword, let p := mulTrunc (s.getV s.osz e) (iv.setWidth s.osz)
         exec (.imulGvEvIv g e iv) s =
           .next (s.finish (((s.drawn 1).setGprLow g p.1).setFlags (mulFlags p.2 (s.any 0))))) ∧
        ∀ ib : Byte, let p := mulTrunc (s.getV s.osz e) (ib.signExtend s.osz)
         exec (.imulGvEvIb g e ib) s =
           .next (s.finish (((s.drawn 1).setGprLow g p.1).setFlags (mulFlags p.2 (s.any 0))))

/-- DIV and IDIV: quotient and remainder where the quotient exists and fits, the status flags open. -/
def Obligations.Divisions : Prop :=
  ∀ (s : State), s.ctx.lock = false →
    (∀ e q r, s.ok8 e false = true →
      (divU (s.gprLow 16 .eax : BitVec (8 + 8)) (s.get8 e) = some (q, r) →
        exec (.divEb e) s =
          .next (s.finish ((((s.drawn 1).setReg8 .al q).setReg8 .ah r).setFlags (Flags.free (s.any 0))))) ∧
      (divS (s.gprLow 16 .eax : BitVec (8 + 8)) (s.get8 e) = some (q, r) →
        exec (.idivEb e) s =
          .next (s.finish ((((s.drawn 1).setReg8 .al q).setReg8 .ah r).setFlags (Flags.free (s.any 0)))))) ∧
    ∀ e q r, s.okV s.osz e false = true →
      (divU (s.pair s.osz) (s.getV s.osz e) = some (q, r) →
        exec (.divEv e) s =
          .next (s.finish ((((s.drawn 1).setGprLow .eax q).setGprLow .edx r).setFlags (Flags.free (s.any 0))))) ∧
      (divS (s.pair s.osz) (s.getV s.osz e) = some (q, r) →
        exec (.idivEv e) s =
          .next (s.finish ((((s.drawn 1).setGprLow .eax q).setGprLow .edx r).setFlags (Flags.free (s.any 0)))))

/-- DIV and IDIV raise the divide error exactly where the divisor is 0 or the quotient does not fit; quotient and
remainder are those of exact division, truncated toward zero for IDIV. -/
def Obligations.DivideErrors : Prop :=
  (∀ (n : Nat) (a : BitVec (n + n)) (d q r : BitVec n), 0 < n →
    (divU a d = some (q, r) →
      a.toNat = q.toNat * d.toNat + r.toNat ∧ r.toNat < d.toNat) ∧
    (divU a d = none ↔ d.toNat = 0 ∨ 2 ^ n ≤ a.toNat / d.toNat) ∧
    (divS a d = some (q, r) →
      a.toInt = q.toInt * d.toInt + r.toInt ∧ r.toInt.natAbs < d.toInt.natAbs ∧ 0 ≤ r.toInt * a.toInt) ∧
    (divS a d = none ↔
      d.toInt = 0 ∨ ¬(-(2 : Int) ^ (n - 1) ≤ a.toInt.tdiv d.toInt ∧ a.toInt.tdiv d.toInt < 2 ^ (n - 1)))) ∧
  ∀ s : State, s.ctx.lock = false →
    (∀ e, s.ok8 e false = true →
      (divU (s.gprLow 16 .eax : BitVec (8 + 8)) (s.get8 e) = none → exec (.divEb e) s = s.trapped 0 none) ∧
      (divS (s.gprLow 16 .eax : BitVec (8 + 8)) (s.get8 e) = none → exec (.idivEb e) s = s.trapped 0 none)) ∧
    ∀ e, s.okV s.osz e false = true →
      (divU (s.pair s.osz) (s.getV s.osz e) = none → exec (.divEv e) s = s.trapped 0 none) ∧
      (divS (s.pair s.osz) (s.getV s.osz e) = none → exec (.idivEv e) s = s.trapped 0 none)

/-- DAA, DAS, AAA, AAS, AAM and AAD: AL goes up or down by 6 where its low digit is above 9 or AF is set and by 60H where
it was above 99H or CF is set; AAA and AAS adjust AH by one and keep the low digit; AAM divides AL, AAD joins AH and AL;
AF and CF say which adjustment was made, ZF, SF and PF describe AL where the spec defines them, the other flags are open.
AAM by 0 raises the divide error. -/
def Obligations.DecimalAdjustments : Prop :=
  ∀ s : State, s.ctx.lock = false →
    let al := s.reg8 .al
    let ah := s.reg8 .ah
    let x := s.any 0
    let t := s.drawn 1
    let low := decide (9 < al.toNat % 16) || s.af
    let high := decide (0x99 < al.toNat) || s.cf
    let told (cf af : Bool) (r : Byte) : Flags :=
      { cf := cf, pf := evenOnes r, af := af, zf := decide (r = 0), sf := r.getLsbD 7, of := x.getLsbD 11 }
    let untold (b : Bool) : Flags :=
      { cf := b, pf := x.getLsbD 2, af := b, zf := x.getLsbD 6, sf := x.getLsbD 7, of := x.getLsbD 11 }
    (let r := al + (if low then 6 else 0) + (if high then 0x60 else 0)
     exec .daa s = .next (s.finish ((t.setReg8 .al r).setFlags (told high low r)))) ∧
    (let r := al - (if low then 6 else 0) - (if high then 0x60 else 0)
     let cf := high || (low && (s.cf || decide (al.toNat < 6)))
     exec .das s = .next (s.finish ((t.setReg8 .al r).setFlags (told cf low r)))) ∧
    exec .aaa s = .next (s.finish (((t.setReg8 .al ((if low then al + 6 else al) &&& 0x0F)).setReg8 .ah
      (if low then ah + 1 else ah)).setFlags (untold low))) ∧
    exec .aas s = .next (s.finish (((t.setReg8 .al ((if low then al - 6 else al) &&& 0x0F)).setReg8 .ah
      (if low then ah - 1 else ah)).setFlags (untold low))) ∧
    (∀ ib, ib ≠ 0 →
      exec (.aamIb ib) s = .next (s.finish
        (((t.setReg8 .al (al % ib)).setReg8 .ah (al / ib)).setFlags (told (x.getLsbD 0) (x.getLsbD 4) (al % ib))))) ∧
    exec (.aamIb 0) s = s.trapped 0 none ∧
    ∀ ib, exec (.aadIb ib) s = .next (s.finish (((t.setReg8 .al (ah * ib + al)).setReg8 .ah 0).setFlags
      (told (x.getLsbD 0) (x.getLsbD 4) (ah * ib + al))))

/-! ## Logic, shifts, bits -/

/-- SETcc writes 1 or 0 as its condition holds, for the sixteen conditions; after a comparison of two values the conditions
mean what their names say: unsigned below, equal, signed less. -/
def Obligations.ConditionsAndSetByte : Prop :=
  (∀ (s : State) (cc : Cond) (e : RM Reg8), s.ctx.lock = false → s.ok8 e true = true →
    exec (.setccEb cc e) s = .next (s.finish (s.put8 e (if s.cond cc then 1 else 0)))) ∧
  ∀ (s : State) (n : Nat) (a b : BitVec n), 0 < n →
    let t := s.setFlags (subFlags a b false).2
    (t.cond .b = decide (a.toNat < b.toNat)) ∧ (t.cond .ae = decide (b.toNat ≤ a.toNat)) ∧
    (t.cond .e = decide (a = b)) ∧ (t.cond .ne = decide (a ≠ b)) ∧
    (t.cond .be = decide (a.toNat ≤ b.toNat)) ∧ (t.cond .a = decide (b.toNat < a.toNat)) ∧
    (t.cond .l = decide (a.toInt < b.toInt)) ∧ (t.cond .ge = decide (b.toInt ≤ a.toInt)) ∧
    (t.cond .le = decide (a.toInt ≤ b.toInt)) ∧ (t.cond .g = decide (b.toInt < a.toInt))

/-- The shifts and rotates in all their forms: with a masked count of 0 nothing changes but EIP; otherwise the result and
its flags are written, open flags from a free value. SHLD and SHRD likewise, the bits that enter coming from a register; a
count above the width leaves the result and the flags open. -/
def Obligations.ShiftsAndRotates : Prop :=
  (∀ (i : Instr) (op : Shift) (e : RM Reg8) (c : Count) (s : State), shift8 i = some (op, e, c) →
    s.ctx.lock = false → s.ok8 e true = true →
    let r := op.result (s.get8 e) (s.shiftCount c) s.flags (s.any 0)
    exec i s = .next (s.finish (if s.shiftCount c = 0 then s else ((s.drawn 1).put8 e r.1).setFlags r.2))) ∧
  (∀ (i : Instr) (op : Shift) (e : RM Gpr) (c : Count) (s : State), shiftV i = some (op, e, c) →
    s.ctx.lock = false → s.okV s.osz e true = true →
    let r := op.result (s.getV s.osz e) (s.shiftCount c) s.flags (s.any 0)
    exec i s = .next (s.finish (if s.shiftCount c = 0 then s else ((s.drawn 1).putV e r.1).setFlags r.2))) ∧
  ∀ (s : State) (e : RM Gpr) (g : Gpr) (ib : Byte), s.ctx.lock = false → s.okV s.osz e true = true →
    let done (k : Nat) (r : BitVec s.osz × Flags) : State := if k = 0 then s else ((s.drawn 2).putV e r.1).setFlags r.2
    let left (k : Nat) := shldAlu (s.getV s.osz e) (s.gprLow s.osz g) k (s.any 0) ((s.any 1).setWidth s.osz)
    let right (k : Nat) := shrdAlu (s.getV s.osz e) (s.gprLow s.osz g) k (s.any 0) ((s.any 1).setWidth s.osz)
    let cl := maskCount (s.reg8 .cl)
    exec (.shldEvGvIb e g ib) s = .next (s.finish (done (maskCount ib) (left (maskCount ib)))) ∧
    exec (.shldEvGvCL e g) s = .next (s.finish (done cl (left cl))) ∧
    exec (.shrdEvGvIb e g ib) s = .next (s.finish (done (maskCount ib) (right (maskCount ib)))) ∧
    exec (.shrdEvGvCL e g) s = .next (s.finish (done cl (right cl)))

/-- What the shifts and rotates do with the bits: SHL and SHR move them, SHR and SAR divide rounding down, ROL and ROR turn
them, RCL and RCR turn them with CF as one more bit above, SHLD and SHRD take the bits that enter from the second operand;
CF is the bit that left last. After a shift SF, ZF and PF describe the result and AF is open; a rotate leaves the four. OF
says for a count of 1 whether the sign changed, by the rule of each instruction, and is open for another count. A count
above the width leaves CF open after SHL and SHR, the sign after SAR, and result and flags open after SHLD and SHRD. -/
def Obligations.ShiftBits : Prop :=
  ∀ (n c : Nat) (a b y : BitVec n) (old : Flags) (x : Dword), 0 < n → 0 < c →
    (∀ i < n, (shlAlu a c x).1.getLsbD i = (decide (c ≤ i) && a.getLsbD (i - c))) ∧
    (shrAlu a c x).1.toNat = a.toNat / 2 ^ c ∧ (sarAlu a c x).1.toInt = a.toInt / 2 ^ c ∧
    (c ≤ n → (shlAlu a c x).2.cf = a.getLsbD (n - c) ∧ (shrAlu a c x).2.cf = a.getLsbD (c - 1) ∧
      (sarAlu a c x).2.cf = a.getLsbD (c - 1)) ∧
    (∀ i < n, (rolAlu a c old x).1.getLsbD ((i + c) % n) = a.getLsbD i ∧
      (rorAlu a c old x).1.getLsbD i = a.getLsbD ((i + c) % n)) ∧
    (rolAlu a c old x).2.cf = (rolAlu a c old x).1.getLsbD 0 ∧
    (rorAlu a c old x).2.cf = (rorAlu a c old x).1.getLsbD (n - 1) ∧
    (let bit (cf : Bool) (v : BitVec n) (i : Nat) : Bool := if i = n then cf else v.getLsbD i
     ∀ i ≤ n,
      bit (rclAlu a c old x).2.cf (rclAlu a c old x).1 ((i + c) % (n + 1)) = bit old.cf a i ∧
      bit (rcrAlu a c old x).2.cf (rcrAlu a c old x).1 i = bit old.cf a ((i + c) % (n + 1))) ∧
    (c ≤ n →
      (∀ i < n, (shldAlu a b c x y).1.getLsbD i = if i < c then b.getLsbD (n - c + i) else a.getLsbD (i - c)) ∧
      (∀ i < n, (shrdAlu a b c x y).1.getLsbD i = if i < n - c then a.getLsbD (i + c) else b.getLsbD (i - (n - c))) ∧
      (shldAlu a b c x y).2.cf = a.getLsbD (n - c) ∧ (shrdAlu a b c x y).2.cf = a.getLsbD (c - 1)) ∧
    (let shifted (p : BitVec n × Flags) : Prop :=
       p.2.describes p.1 ∧ p.2.af = x.getLsbD 4 ∧ (c ≠ 1 → p.2.of = x.getLsbD 11)
     let turned (p : BitVec n × Flags) : Prop :=
       p.2.sf = old.sf ∧ p.2.zf = old.zf ∧ p.2.af = old.af ∧ p.2.pf = old.pf ∧ (c ≠ 1 → p.2.of = x.getLsbD 11)
     shifted (shlAlu a c x) ∧ shifted (shrAlu a c x) ∧ shifted (sarAlu a c x) ∧
     (c ≤ n → shifted (shldAlu a b c x y) ∧ shifted (shrdAlu a b c x y)) ∧
     turned (rolAlu a c old x) ∧ turned (rorAlu a c old x) ∧ turned (rclAlu a c old x) ∧ turned (rcrAlu a c old x)) ∧
    (n < c →
      let open' : Flags :=
        { cf := x.getLsbD 0, pf := x.getLsbD 2, af := x.getLsbD 4, zf := x.getLsbD 6, sf := x.getLsbD 7,
          of := x.getLsbD 11 }
      (shlAlu a c x).2.cf = x.getLsbD 0 ∧ (shrAlu a c x).2.cf = x.getLsbD 0 ∧ (sarAlu a c x).2.cf = a.msb ∧
      shldAlu a b c x y = (y, open') ∧ shrdAlu a b c x y = (y, open')) ∧
    (c = 1 →
      let signCarry (p : BitVec n × Flags) : Bool := p.1.msb != p.2.cf
      let top2 (v : BitVec n) : Bool := v.getLsbD (n - 1) != v.getLsbD (n - 2)
      (shlAlu a c x).2.of = signCarry (shlAlu a c x) ∧ (shrAlu a c x).2.of = a.msb ∧ (sarAlu a c x).2.of = false ∧
      (rolAlu a c old x).2.of = signCarry (rolAlu a c old x) ∧
      (rclAlu a c old x).2.of = signCarry (rclAlu a c old x) ∧
      (rorAlu a c old x).2.of = top2 (rorAlu a c old x).1 ∧ (rcrAlu a c old x).2.of = top2 (rcrAlu a c old x).1 ∧
      (shldAlu a b c x y).2.of = ((shldAlu a b c x y).1.msb != a.msb) ∧
      (shrdAlu a b c x y).2.of = ((shrdAlu a b c x y).1.msb != a.msb))

/-- BT, BTS, BTR and BTC: CF is the tested bit, whose word a register offset finds up to 2^31 bits away; the three
others change that bit. The other status flags are open. -/
def Obligations.BitTests : Prop :=
  (∀ (bit : Bool) (x : Dword), bitFlags bit x =
    { cf := bit, pf := x.getLsbD 2, af := x.getLsbD 4, zf := x.getLsbD 6, sf := x.getLsbD 7, of := x.getLsbD 11 }) ∧
  (∀ (i : Instr) (e : RM Gpr) (x : BitIndex) (s : State), bitTestForm i = some (e, x) →
    s.ctx.lock = false → s.okBit s.osz e x false = true →
    let v := s.getBitWord s.osz e x
    let k := bitNumber s.osz (s.bitOffset s.osz x)
    exec i s = .next (s.finish ((s.drawn 1).setFlags (bitFlags (v.getLsbD k) (s.any 0))))) ∧
  ∀ (i : Instr) (op : BitOp) (e : RM Gpr) (x : BitIndex) (s : State), bitChangeForm i = some (op, e, x) →
    (s.ctx.lock = true → isMem e = true) → s.okBit s.osz e x true = true →
    let v := s.getBitWord s.osz e x
    let k := bitNumber s.osz (s.bitOffset s.osz x)
    exec i s = .next (s.finish
      (((s.putBitWord e x (op.change v k)).drawn 1).setFlags (bitFlags (v.getLsbD k) (s.any 0))))

/-- BSF and BSR: the number of the lowest or highest set bit and ZF = 0; of 0, ZF = 1 and an open destination. The other
status flags are open. -/
def Obligations.BitScans : Prop :=
  (∀ (zero : Bool) (x : Dword), scanFlags zero x =
    { cf := x.getLsbD 0, pf := x.getLsbD 2, af := x.getLsbD 4, zf := zero, sf := x.getLsbD 7, of := x.getLsbD 11 }) ∧
  ∀ (s : State) (g : Gpr) (e : RM Gpr), s.ctx.lock = false → s.okV s.osz e false = true →
    let a := s.getV s.osz e
    let none' := (((s.drawn 2).setGprLow g ((s.any 1).setWidth s.osz)).setFlags (scanFlags true (s.any 0)))
    let found (i : Nat) := (((s.drawn 1).setGprLow g (BitVec.ofNat s.osz i)).setFlags (scanFlags false (s.any 0)))
    (a = 0 → exec (.bsfGvEv g e) s = .next (s.finish none') ∧ exec (.bsrGvEv g e) s = .next (s.finish none')) ∧
    ∀ i, i < s.osz → a.getLsbD i = true →
      ((∀ j < i, a.getLsbD j = false) → exec (.bsfGvEv g e) s = .next (s.finish (found i))) ∧
      ((∀ j, i < j → a.getLsbD j = false) → exec (.bsrGvEv g e) s = .next (s.finish (found i)))

/-! ## Data movement -/

/-- MOV in all its general forms: the destination holds the source; a direct offset is taken in DS or the overridden
segment. XCHG swaps its two operands; LOCK is accepted with a memory operand. No flag changes. -/
def Obligations.MovesAndExchanges : Prop :=
  (∀ (i : Instr) (dst : RM Reg8) (src : Src8) (s : State), move8 i = some (dst, src) → s.ctx.lock = false →
    s.ok8 dst true = true → s.okSrc8 src = true → exec i s = .next (s.finish (s.put8 dst (s.src8 src)))) ∧
  (∀ (i : Instr) (dst : RM Gpr) (src : SrcV) (s : State), moveV i = some (dst, src) → s.ctx.lock = false →
    s.okV s.osz dst true = true → s.okSrcV s.osz src = true →
    exec i s = .next (s.finish (s.putV dst (s.srcV s.osz src)))) ∧
  (∀ (s : State) (o : Dword), s.ctx.lock = false →
    (s.reachable s.dataSeg o 1 false = true →
      exec (.movALOb o) s = .next (s.finish (s.setReg8 .al (s.load s.dataSeg o 1 8)))) ∧
    (s.reachable s.dataSeg o (s.osz / 8) false = true →
      exec (.movEAXOv o) s = .next (s.finish (s.setGprLow .eax (s.load s.dataSeg o (s.osz / 8) s.osz)))) ∧
    (s.reachable s.dataSeg o 1 true = true →
      exec (.movObAL o) s = .next (s.finish (s.store s.dataSeg o 1 (s.reg8 .al)))) ∧
    (s.reachable s.dataSeg o (s.osz / 8) true = true →
      exec (.movOvEAX o) s = .next (s.finish (s.store s.dataSeg o (s.osz / 8) (s.gprLow s.osz .eax))))) ∧
  (∀ (s : State) (e : RM Reg8) (g : Reg8), (s.ctx.lock = true → isMem e = true) → s.ok8 e true = true →
    exec (.xchgEbGb e g) s = .next (s.finish ((s.put8 e (s.reg8 g)).setReg8 g (s.get8 e)))) ∧
  (∀ (s : State) (e : RM Gpr) (g : Gpr), (s.ctx.lock = true → isMem e = true) → s.okV s.osz e true = true →
    exec (.xchgEvGv e g) s =
      .next (s.finish ((s.putV e (s.gprLow s.osz g)).setGprLow g (s.getV s.osz e)))) ∧
  ∀ (s : State) (r : Gpr), s.ctx.lock = false →
    exec (.xchgEAXRv r) s =
      .next (s.finish ((s.setGprLow .eax (s.gprLow s.osz r)).setGprLow r (s.gprLow s.osz .eax)))

/-- MOV from a segment register stores its selector; MOV to one loads it after the checks of the mode, and MOV to SS holds
off events at the next boundary; MOV to CS is an invalid opcode. LDS, LES, LFS, LGS and LSS: the selector after the offset
is loaded with the checks of the mode, then the offset goes to the general register. In protected mode a selector that
fails a check raises the general protection, segment-not-present or stack exception with the selector as error code, and
nothing changes; so it does in a POP to a segment register. -/
def Obligations.SegmentLoads : Prop :=
  (∀ (s : State) (e : RM Gpr) (sr : Sreg), s.ctx.lock = false →
    (s.okV 16 e true = true → exec (.movEwSw e sr) s = .next (s.finish (s.putWord e (s.seg sr).sel))) ∧
    (sr ≠ .cs → s.okV 16 e false = true → s.canLoadSeg sr (s.getV 16 e) = true →
      let t := s.loadedSeg sr (s.getV 16 e)
      exec (.movSwEw sr e) s = .next (s.finish (if sr = .ss then { t with inhibitSS := true } else t))) ∧
    exec (.movSwEw .cs e) s = s.trapped 6 none ∧
    ∀ vec code, sr ≠ .cs → s.okV 16 e false = true → s.pe = true → s.tableRam (s.getV 16 e) = true →
      s.segFault sr (s.getV 16 e) = some (vec, code) → exec (.movSwEw sr e) s = s.trapped vec (some code)) ∧
  (∀ (i : Instr) (r : Sreg) (g : Gpr) (m : Mem) (s : State), loadFarForm i = some (r, g, m) → s.ctx.lock = false →
    s.reachable (s.effSeg m) (s.effOff m) (s.osz / 8 + 2) false = true →
    let off : BitVec s.osz := s.load (s.effSeg m) (s.effOff m) (s.osz / 8) s.osz
    let sel : Word := s.load (s.effSeg m) (s.effOff m + BitVec.ofNat 32 (s.osz / 8)) 2 16
    (s.canLoadSeg r sel = true →
      exec i s = .next (s.finish ((s.loadedSeg r sel).setGprLow g off))) ∧
    ∀ vec code, s.pe = true → s.tableRam sel = true → s.segFault r sel = some (vec, code) →
      exec i s = s.trapped vec (some code)) ∧
  ∀ (i : Instr) (r : Sreg) (s : State) (vec : Byte) (code : Word), popSegForm i = some r → s.ctx.lock = false →
    s.canPop s.oszBytes = true → s.pe = true →
    let sel : Word := (s.top s.oszBytes 32).setWidth 16
    s.tableRam sel = true → s.segFault r sel = some (vec, code) → exec i s = s.trapped vec (some code)

/-- PUSH in all its forms, PUSHF and PUSHA: the stack pointer goes down by the operand size and the value, read before,
is stored there; a selector pushed as a doubleword has an open upper half; PUSHF clears VM and RF in the image. -/
def Obligations.Pushes : Prop :=
  (∀ (i : Instr) (src : SrcV) (s : State), pushForm i = some src → s.ctx.lock = false →
    s.okSrcV s.osz src = true → s.canPush (s.osz / 8) = true →
    exec i s = .next (s.finish (s.pushed (s.osz / 8) (s.srcV s.osz src)))) ∧
  (∀ (i : Instr) (r : Sreg) (s : State), pushSegForm i = some r → s.ctx.lock = false →
    s.canPush s.oszBytes = true →
    exec i s = .next (s.finish
      (if s.o32 then (s.drawn 1).pushed 4 ((s.any 0).setWidth 16 ++ (s.seg r).sel) else s.pushed 2 (s.seg r).sel))) ∧
  ∀ s : State, s.ctx.lock = false →
    (s.canPush s.oszBytes = true →
      exec .pushf s = .next (s.finish (s.pushed s.oszBytes (s.eflags &&& 0x00FCFFFF)))) ∧
    (s.canPushAll s.oszBytes 8 = true →
      exec .pusha s = .next (s.finish (s.pushedAll s.oszBytes
        [s.gprs.eax, s.gprs.ecx, s.gprs.edx, s.gprs.ebx, s.gprs.esp, s.gprs.ebp, s.gprs.esi, s.gprs.edi])))

/-- POP in all its forms, POPF and POPA: the value at the top of the stack goes to the destination, which is addressed
after the stack pointer has moved; POPF keeps VM and RF, IOPL above level 0, and IF above IOPL; POPA skips the stack
pointer. POP SS moves the stack pointer of the old stack size, whatever the B bit of the new SS: the model's choice, log
17. -/
def Obligations.Pops : Prop :=
  (∀ (i : Instr) (e : RM Gpr) (s : State), popForm i = some e → s.ctx.lock = false → s.canPop (s.osz / 8) = true →
    let t := s.popped (s.osz / 8)
    t.okV s.osz e true = true → exec i s = .next (s.finish (t.putV e (s.top (s.osz / 8) s.osz)))) ∧
  (∀ (i : Instr) (r : Sreg) (s : State), popSegForm i = some r → s.ctx.lock = false → s.canPop s.oszBytes = true →
    let sel : Word := (s.top s.oszBytes 32).setWidth 16
    (s.popped s.oszBytes).canLoadSeg r sel = true →
    let t := (s.popped s.oszBytes).loadedSeg r sel
    exec i s = .next (s.finish (if r = .ss then { t with inhibitSS := true } else t))) ∧
  ∀ s : State, s.ctx.lock = false →
    (s.canPop s.oszBytes = true →
      exec .popf s = .next (s.finish { s.popped s.oszBytes with
        eflags := writeFlags s.eflags (s.top s.oszBytes 32) false (if s.pe then some s.cpl else none)
        ctx := { s.ctx with keepRF := true } })) ∧
    (let n := s.osz / 8
     let off (i : Nat) := stackOff s.stack32 (s.gpr .esp + BitVec.ofNat 32 (n * i))
     let v (i : Nat) : BitVec s.osz := s.load .ss (off i) n s.osz
     ([0, 1, 2, 4, 5, 6, 7].all fun i => s.reachable .ss (off i) n false) = true →
     exec .popa s = .next (s.finish
       ((((((((s.setGprLow .edi (v 0)).setGprLow .esi (v 1)).setGprLow .ebp (v 2)).setGprLow .ebx (v 4)).setGprLow
         .edx (v 5)).setGprLow .ecx (v 6)).setGprLow .eax (v 7)).releaseStack (8 * n))))

/-- MOVZX and MOVSX extend a byte or word to the operand size; CBW, CWDE, CWD and CDQ extend the accumulator; LEA gives
the offset of its operand, XLAT the table byte at EBX + AL. No flag changes. CBW and CWD are the opcodes 98H and 99H. -/
def Obligations.Conversions : Prop :=
  (∀ c : DecodeCtx, (decodeOne c).run [0x98] = .ok (.cbw, []) ∧ (decodeOne c).run [0x99] = .ok (.cwd, [])) ∧
  ∀ s : State, s.ctx.lock = false →
    (∀ g e, s.ok8 e false = true →
      exec (.movzxGvEb g e) s = .next (s.finish (s.setGprLow g ((s.get8 e).setWidth s.osz))) ∧
      exec (.movsxGvEb g e) s = .next (s.finish (s.setGprLow g ((s.get8 e).signExtend s.osz)))) ∧
    (∀ g e, s.okV 16 e false = true →
      exec (.movzxGvEw g e) s = .next (s.finish (s.setGprLow g ((s.getV 16 e).setWidth s.osz))) ∧
      exec (.movsxGvEw g e) s = .next (s.finish (s.setGprLow g ((s.getV 16 e).signExtend s.osz)))) ∧
    exec .cbw s = .next (s.finish
      (if s.o32 then s.setGpr .eax ((s.gprLow 16 .eax).signExtend 32)
       else s.setGprLow .eax ((s.reg8 .al).signExtend 16))) ∧
    exec .cwd s = .next (s.finish
      (s.setGprLow .edx (if (s.gprLow s.osz .eax).msb then BitVec.allOnes s.osz else 0#s.osz))) ∧
    (∀ g m, exec (.leaGvM g m) s = .next (s.finish (s.setGprLow g ((s.effOff m).setWidth s.osz)))) ∧
    (s.reachable s.dataSeg s.xlatOff 1 false = true →
      exec .xlat s = .next (s.finish (s.setReg8 .al (s.load s.dataSeg s.xlatOff 1 8))))

/-! ## Control transfer -/

/-- JMP, Jcc, JCXZ and the LOOPs: EIP is the target, checked against the limit of CS and cut to the operand size, or the
next instruction; the LOOPs count CX or ECX down first. No flag changes. A taken branch orders instruction fetch: whatever
was prefetched before it, each byte that may be fetched after it is read from memory as it then stands. -/
def Obligations.NearBranches : Prop :=
  ∀ s : State, s.ctx.lock = false →
    (∀ jb, s.canBranch true (ib8 jb) = true → exec (.jmpJb jb) s = .next (complete s (s.branched true (ib8 jb)))) ∧
    (∀ jv, s.canBranch true (jv32 jv) = true →
      exec (.jmpJv jv) s = .next (complete s (s.branched true (jv32 jv)))) ∧
    (∀ e, s.okV s.osz e false = true → s.inCode ((s.getV s.osz e).setWidth 32) = true →
      exec (.jmpEv e) s = .next (complete s (s.goTo ((s.getV s.osz e).setWidth 32)))) ∧
    (∀ cc jb, s.canBranch (s.cond cc) (ib8 jb) = true →
      exec (.jccJb cc jb) s = .next (complete s (s.branched (s.cond cc) (ib8 jb)))) ∧
    (∀ cc jv, s.canBranch (s.cond cc) (jv32 jv) = true →
      exec (.jccJv cc jv) s = .next (complete s (s.branched (s.cond cc) (jv32 jv)))) ∧
    (∀ jb, s.canBranch (s.count == 0) (ib8 jb) = true →
      exec (.jcxzJb jb) s = .next (complete s (s.branched (s.count == 0) (ib8 jb)))) ∧
    let t := s.decCount
    (∀ jb, t.canBranch (t.count != 0) (ib8 jb) = true →
      exec (.loopJb jb) s = .next (complete s (t.branched (t.count != 0) (ib8 jb)))) ∧
    (∀ jb, t.canBranch (t.count != 0 && s.zf) (ib8 jb) = true →
      exec (.loopeJb jb) s = .next (complete s (t.branched (t.count != 0 && s.zf) (ib8 jb)))) ∧
    (∀ jb, t.canBranch (t.count != 0 && !s.zf) (ib8 jb) = true →
      exec (.loopneJb jb) s = .next (complete s (t.branched (t.count != 0 && !s.zf) (ib8 jb)))) ∧
    ∀ (u : State) (dst : Dword) (k : Nat),
      let after := complete s (u.goTo dst)
      after.mayFetch k = true →
        fetchByte k (Tx.start after) = readCode (after.eip + BitVec.ofNat 32 k) (Tx.start after)

/-- A near transfer to an offset past the limit of CS, in any of its forms, raises the general protection fault and moves
nothing; so does going on past the limit, or past the last offset that sequential execution may reach. -/
def Obligations.BranchPastLimitFaults : Prop :=
  (∀ s : State, s.ctx.lock = false →
    (∀ jb, s.inCode (s.branchTo (ib8 jb)) = false →
      exec (.jmpJb jb) s = s.trapped 13 (some 0) ∧
      (∀ cc, s.cond cc = true → exec (.jccJb cc jb) s = s.trapped 13 (some 0)) ∧
      (s.count = 0 → exec (.jcxzJb jb) s = s.trapped 13 (some 0)) ∧
      (s.decCount.count ≠ 0 →
        exec (.loopJb jb) s = s.trapped 13 (some 0) ∧
        (s.zf = true → exec (.loopeJb jb) s = s.trapped 13 (some 0)) ∧
        (s.zf = false → exec (.loopneJb jb) s = s.trapped 13 (some 0)))) ∧
    (∀ jv, s.inCode (s.branchTo (jv32 jv)) = false →
      exec (.jmpJv jv) s = s.trapped 13 (some 0) ∧ exec (.callJv jv) s = s.trapped 13 (some 0) ∧
      ∀ cc, s.cond cc = true → exec (.jccJv cc jv) s = s.trapped 13 (some 0)) ∧
    (∀ e, s.okV s.osz e false = true → s.inCode ((s.getV s.osz e).setWidth 32) = false →
      exec (.jmpEv e) s = s.trapped 13 (some 0) ∧ exec (.callEv e) s = s.trapped 13 (some 0)) ∧
    (s.canPop s.oszBytes = true → s.inCode (s.top s.oszBytes 32) = false →
      exec .ret s = s.trapped 13 (some 0) ∧ ∀ iw, exec (.retIw iw) s = s.trapped 13 (some 0))) ∧
  ∀ s : State, s.resetPin = false → s.run = .running → s.pendingEvent = none →
    s.eipOver = true ∨ s.segs.cs.limit.toNat < s.eip.toNat →
    step s = ({ s with inhibitSS := false, inhibitSTI := false, trapPending := false } : State).trapped 13 (some 0)

/-- CALL pushes the offset of the next instruction and goes to its target; RET pops the target and releases its operand's
bytes. -/
def Obligations.NearCallsAndReturns : Prop :=
  ∀ s : State, s.ctx.lock = false →
    (∀ jv, s.inCode (s.branchTo (jv32 jv)) = true → s.canPush s.oszBytes = true →
      exec (.callJv jv) s =
        .next (complete s ((s.pushed s.oszBytes s.nextEip).goTo (s.branchTo (jv32 jv))))) ∧
    (∀ e, s.okV s.osz e false = true → s.inCode ((s.getV s.osz e).setWidth 32) = true → s.canPush s.oszBytes = true →
      exec (.callEv e) s =
        .next (complete s ((s.pushed s.oszBytes s.nextEip).goTo ((s.getV s.osz e).setWidth 32)))) ∧
    (s.canPop s.oszBytes = true → s.inCode (s.top s.oszBytes 32) = true →
      let t := (s.popped s.oszBytes).goTo (s.top s.oszBytes 32)
      exec .ret s = .next (complete s (t.releaseStack 0)) ∧
      ∀ iw : Word, exec (.retIw iw) s = .next (complete s (t.releaseStack iw.toNat)))

/-- Far JMP and CALL, with the pointer in the instruction or in memory: in real-address mode CS gets the selector and its
base; in protected mode a code segment of the same level, or a conforming one, is entered at CPL. CALL pushes CS and
the next EIP. RETF pops EIP and CS and releases its operand's bytes, in real-address mode or to the same level. A selector
that fails a check raises the exception of the rules with the selector as error code, an offset past the limit the general
protection fault, a stack that does not hold the return address, or has no room for it, the stack fault. A far JMP or CALL
to a free 386 TSS switches tasks. An 80286 TSS or call gate is refused: outside the model. -/
def Obligations.FarTransfersAndReturns : Prop :=
  (∀ (i : Instr) (call : Bool) (src : FarSrc) (s : State), farForm i = some (call, src) → s.ctx.lock = false →
    s.okFar src = true → s.canFar call (s.farPtr src).2 (s.farPtr src).1 = true →
    exec i s = .next (complete s (s.farDone call (s.farPtr src).2 (s.farPtr src).1))) ∧
  (∀ (i : Instr) (call : Bool) (src : FarSrc) (s : State) (d : Desc), farForm i = some (call, src) →
    s.ctx.lock = false → s.okFar src = true → s.pe = true → isNull (s.farPtr src).2 = false →
    s.descFor (s.farPtr src).2 = some d → d.s = false → (d.typ = 1 ∨ d.typ = 3 ∨ d.typ = 4) →
    exec i s = .refused .descriptor286) ∧
  (∀ (i : Instr) (call : Bool) (src : FarSrc) (s : State), farForm i = some (call, src) → s.ctx.lock = false →
    s.okFar src = true →
    let off := (s.farPtr src).1
    let sel := (s.farPtr src).2
    (s.pe = false → s.inCode off = false → exec i s = s.trapped 13 (some 0)) ∧
    (call = true → s.canFar false sel off = true → s.pg = false → s.segs.ss.valid = true →
      s.segs.ss.allows true = true → ((s.pushOffs s.oszBytes 2).all fun p => s.segs.ss.inLimit p s.oszBytes) = false →
      exec i s = (s.drawn 1).trapped 12 (some 0)) ∧
    (s.pe = true → s.tableRam sel = true →
      ∀ vec code, s.farFault sel off = some (vec, code) → exec i s = s.trapped vec (some code)) ∧
    ∀ d, s.pe = true → isNull sel = false → ti sel = false → s.descFor sel = some d → d.isFreeTss = true →
      s.useDenied sel d = false →
      let k : SwitchKind := if call then .call else .jmp
      s.canSwitch d k = true →
      (∀ t, s.switchTo sel d k s.nextEip s.eflags = .ok t →
        exec i s = .next (complete s (t.taskTrap (s.tssImage d.base)))) ∧
      ∀ t vec code, s.switchTo sel d k s.nextEip s.eflags = .error (t, vec, code) →
        (∀ q, t.tableRam q = true) → exec i s = t.trapped vec (some code)) ∧
  ∀ s : State, s.ctx.lock = false →
    let n := s.oszBytes
    (s.canRetf = true →
      exec .retf s = .next (complete s (s.retfDone 0)) ∧
      ∀ iw : Word, exec (.retfIw iw) s = .next (complete s (s.retfDone iw.toNat))) ∧
    (s.holdsReturn = false →
      exec .retf s = s.trapped 12 (some 0) ∧ ∀ iw : Word, exec (.retfIw iw) s = s.trapped 12 (some 0)) ∧
    (s.holdsReturn = true → s.canSlot 0 n = true → s.canSlot n 2 = true →
      (s.pe = false → s.inCode (s.slot 0 n 32) = false →
        exec .retf s = s.trapped 13 (some 0) ∧ ∀ iw : Word, exec (.retfIw iw) s = s.trapped 13 (some 0)) ∧
      (s.pe = true → s.tableRam (s.slot n 2 16) = true →
        ∀ vec code, s.returnFault (s.slot n 2 16) (s.slot 0 n 32) = some (vec, code) →
          exec .retf s = s.trapped vec (some code) ∧ ∀ iw : Word, exec (.retfIw iw) s = s.trapped vec (some code)))

/-- A far JMP or CALL through a call gate enters the code the gate names, whatever offset the instruction gives: at CPL for
a JMP, conforming code or code of the same level; a CALL to an inner level goes on on the stack that the TSS gives, with
SS, ESP, the parameters, CS and the next EIP on it. A gate, a target or an inner stack that fails a check raises the
exception of the rules with its selector as error code. Through a task gate a far JMP or CALL switches to the free 386 TSS
that the gate names; an 80286 TSS behind it is refused: outside the model. -/
def Obligations.CallGates : Prop :=
  (∀ (i : Instr) (call : Bool) (src : FarSrc) (s : State) (g d : Desc), farForm i = some (call, src) →
    s.ctx.lock = false → s.okFar src = true → s.pe = true → isNull (s.farPtr src).2 = false →
    s.descFor (s.farPtr src).2 = some g → s.callGateFits (s.farPtr src).2 g d = true → s.descFor g.gateSel = some d →
    (d.dpl = s.cpl ∨ (d.conforming = true ∧ d.dpl.toNat ≤ s.cpl.toNat) → (call = true → s.canPushAll 4 2 = true) →
      let t := if call then (s.drawn 1).pushedAll 4 [(s.any 0).setWidth 16 ++ s.segs.cs.sel, s.nextEip] else s
      exec i s = .next (complete s (t.enterCode g.gateSel s.cpl d g.gateOff))) ∧
    ∀ sd, call = true → d.conforming = false → d.dpl.toNat < s.cpl.toNat →
      s.descFor (s.tssStackAt d.dpl).1 = some sd → s.innerFits d.dpl sd (4 + g.gateCount.toNat) = true →
      s.canParams g.gateCount.toNat = true →
      ((s.drawn 2).onInner d.dpl (s.tssStackAt d.dpl).1 sd (s.tssStackAt d.dpl).2).canPushAll 4
        (4 + g.gateCount.toNat) = true →
      exec i s = .next (complete s (s.calledInner g d sd))) ∧
  ∀ (i : Instr) (call : Bool) (src : FarSrc) (s : State) (g : Desc), farForm i = some (call, src) →
    s.ctx.lock = false → s.okFar src = true → s.pe = true →
    let sel := (s.farPtr src).2
    let k : SwitchKind := if call then .call else .jmp
    isNull sel = false → s.descFor sel = some g → g.s = false →
    (g.typ = 12 → s.tssRam = true → (∀ q, s.tableRam q = true) →
      ∀ vec code, s.gateFault call sel g = some (vec, code) → exec i s = s.trapped vec (some code)) ∧
    (g.typ = 5 → s.tableRam g.gateSel = true →
      ∀ vec code, s.taskGateFault sel g = some (vec, code) → exec i s = s.trapped vec (some code)) ∧
    (g.typ = 5 → s.useDenied sel g = false → g.p = true → isNull g.gateSel = false → ti g.gateSel = false →
      ∀ d, s.descFor g.gateSel = some d →
        (d.s = false → d.typ = 1 ∨ d.typ = 3 → exec i s = .refused .descriptor286) ∧
        (d.isFreeTss = true → s.canSwitch d k = true →
          (∀ t, s.switchTo g.gateSel d k s.nextEip s.eflags = .ok t →
            exec i s = .next (complete s (t.taskTrap (s.tssImage d.base)))) ∧
          ∀ t vec code, s.switchTo g.gateSel d k s.nextEip s.eflags = .error (t, vec, code) →
            (∀ q, t.tableRam q = true) → exec i s = t.trapped vec (some code)))

/-- RETF and IRET to an outer level: CS:EIP, then SS:ESP of the outer level are popped, RETF releases its operand's bytes on
both stacks, IRET loads the flags as the inner level allows and ends NMI service; segment registers that the outer
level may not use are emptied. A saved SS:ESP outside the stack is a stack fault; an SS that fails a check raises its
exception with the selector as error code. -/
def Obligations.ReturnsToOuterLevel : Prop :=
  ∀ (s : State) (d : Desc), s.ctx.lock = false → s.pe = true →
    let n := s.oszBytes
    let sel : Word := s.slot n 2 16
    let off : Dword := s.slot 0 n 32
    s.descFor sel = some d → s.canSlot 0 n = true → s.canSlot n 2 = true → s.cpl.toNat < (rpl sel).toNat →
    s.returnFault sel off = none →
    let noVm := !(n == 4 && (s.slot (2 * n) n 32).getLsbD 17 && s.cpl == 0)
    let popsFlags := s.nt = false ∧ s.holdsSlots 0 n 3 = true ∧ s.canSlot (2 * n) n = true ∧ noVm = true
    (∀ iw : Word,
      let up := 2 * n + iw.toNat
      let nss : Word := s.slot (up + n) 2 16
      let returns (o : Outcome) : Prop := (iw = 0 → exec .retf s = o) ∧ exec (.retfIw iw) s = o
      s.holdsSlots 0 n 2 = true →
      (s.holdsSlots up n 2 = false → returns (s.trapped 12 (some 0))) ∧
      (s.holdsSlots up n 2 = true → s.canSlot up n = true → s.canSlot (up + n) 2 = true →
        (s.tableRam nss = true → ∀ vec code, s.outerFault (rpl sel) nss = some (vec, code) →
          returns (s.trapped vec (some code))) ∧
        ∀ sd, s.descFor nss = some sd → s.outerFault (rpl sel) nss = none →
          (d.limit32.toNat < off.toNat → returns (s.trapped 13 (some 0))) ∧
          (off.toNat ≤ d.limit32.toNat →
            returns (.next (complete s (s.toOuter n up iw.toNat d sd).cleanSegs))))) ∧
    (popsFlags →
      let up := 3 * n
      let nss : Word := s.slot (up + n) 2 16
      (s.holdsSlots up n 2 = false → exec .iret s = s.trapped 12 (some 0)) ∧
      (s.holdsSlots up n 2 = true → s.canSlot up n = true → s.canSlot (up + n) 2 = true →
        (s.tableRam nss = true → ∀ vec code, s.outerFault (rpl sel) nss = some (vec, code) →
          exec .iret s = s.trapped vec (some code)) ∧
        ∀ sd, s.descFor nss = some sd → s.outerFault (rpl sel) nss = none →
          (d.limit32.toNat < off.toNat → exec .iret s = s.trapped 13 (some 0)) ∧
          (off.toNat ≤ d.limit32.toNat →
            let t := ({ s with nmiLatch := false, ctx := { s.ctx with keepRF := true } } : State).toOuter n up 0 d sd
            let flags := writeFlags s.eflags (s.slot (2 * n) n 32) (n == 4) (some s.cpl)
            exec .iret s = .next (complete s ({ t with eflags := flags } : State).cleanSegs))))

/-- BOUND passes an index between its bounds and raises exception 5 for any other; INTO does nothing without overflow. -/
def Obligations.BoundAndInto : Prop :=
  ∀ s : State, s.ctx.lock = false →
    (∀ g m, s.reachable (s.effSeg m) (s.effOff m) (2 * (s.osz / 8)) false = true →
      let lo : BitVec s.osz := s.load (s.effSeg m) (s.effOff m) (s.osz / 8) s.osz
      let hi : BitVec s.osz := s.load (s.effSeg m) (s.effOff m + BitVec.ofNat 32 (s.osz / 8)) (s.osz / 8) s.osz
      let i := s.gprLow s.osz g
      (lo.toInt ≤ i.toInt ∧ i.toInt ≤ hi.toInt → exec (.boundGvMa g m) s = .next (s.finish s)) ∧
      (i.toInt < lo.toInt ∨ hi.toInt < i.toInt → exec (.boundGvMa g m) s = s.trapped 5 none)) ∧
    (s.of = false → exec .into s = .next (complete s s.advance))

/-- ENTER with any nesting level builds the frame: the caller's EBP, the display, the new EBP and the local bytes; LEAVE
takes it down. -/
def Obligations.StackFrames : Prop :=
  (∀ (s : State) (alloc : Word) (level : Byte) (u : State), s.ctx.lock = false →
    s.enterFrames (level.toNat % 32) = some u →
    exec (.enterIwIb alloc level) s = .next (s.finish (s.enterDone u alloc))) ∧
  ∀ s : State, s.ctx.lock = false →
    let off := stackOff s.stack32 (s.gpr .ebp)
    s.reachable .ss off (s.osz / 8) false = true →
    exec .leave s = .next (s.finish
      ((s.setSp (off + BitVec.ofNat 32 (s.osz / 8))).setGprLow .ebp (s.load .ss off (s.osz / 8) s.osz)))

/-! ## Exceptions and interrupts -/

/-- Taking an exception: EIP of the instruction, CS and the flags are pushed and the handler entered, in real-address mode
through the vector table, in protected mode through an interrupt or trap gate to code of the same level with the error
code on top; the processor runs. The flags pushed have RF set for a fault that is no debug fault and are otherwise those of the
program; in the handler TF, NT and RF are 0, IF is 0 through an interrupt gate, and every other flag stands. Through a task
gate the new task is entered, linked back to the old one, with the error code on its stack. -/
def Obligations.ExceptionEntry : Prop :=
  (∀ (s : State) (vec : Byte) (err : Option Word), s.canEnter vec .exception err = true →
    s.trapped vec err =
      .next { s.entered vec .exception err s.eip with run := .running, ctx := Ctx.empty }) ∧
  (∀ (flags : Dword) (vec : Byte) (kind : EventKind) (i : Nat), i < 32 →
    (flagsImage flags vec kind).getLsbD i =
      (flags.getLsbD i || (i == 16 && kind == .exception && vec != 1 && vec != 8))) ∧
  (∀ (flags : Dword) (interruptGate : Bool) (i : Nat), i < 32 →
    (entryFlags flags interruptGate).getLsbD i =
      (flags.getLsbD i && !(i == 8 || i == 14 || i == 16 || (i == 9 && interruptGate)))) ∧
  ∀ (s : State) (vec : Byte) (err : Option Word) (g d : Desc), s.pe = true → s.gateFor vec = some g → g.s = false →
    g.typ = 5 → g.p = true → isNull g.gateSel = false → ti g.gateSel = false → s.descFor g.gateSel = some d →
    d.isFreeTss = true → s.canSwitch d .int = true →
    ∀ t, ({ s with run := .running } : State).switchTo g.gateSel d .int s.eip (flagsImage s.eflags vec .exception) = .ok t →
      t.canErr err = true →
      s.trapped vec err = .next { (t.withErr err).taskTrap (s.tssImage d.base) with ctx := Ctx.empty }

/-- Taking an exception at an outer level: the stack of the handler's level comes from the TSS, SS and ESP of the program
are pushed before the frame, and the handler runs at its own level; the flags pushed and the flags of the handler are those
that ExceptionEntry writes out. -/
def Obligations.ExceptionEntryToInnerLevel : Prop :=
  ∀ (s : State) (vec : Byte) (err : Option Word) (g d sd : Desc), s.pe = true → s.gateFor vec = some g →
    s.gateFits g .exception = true → s.descFor g.gateSel = some d → d.isCode = true → d.p = true →
    d.conforming = false → d.dpl.toNat < s.cpl.toNat → g.gateOff.toNat ≤ d.limit32.toNat →
    s.descFor (s.tssStackAt d.dpl).1 = some sd → s.innerFits d.dpl sd (5 + errCount err) = true →
    ((s.drawn (2 + errCount err)).onInner d.dpl (s.tssStackAt d.dpl).1 sd (s.tssStackAt d.dpl).2).canPushAll 4
      (5 + errCount err) = true →
    s.trapped vec err =
      .next { s.enteredInner g d sd (flagsImage s.eflags vec .exception) s.eip err with
        run := .running, ctx := Ctx.empty }

/-- INT n, INT 3, and INTO with overflow, deliver their vector with the offset of the next instruction, without error
code, to a handler of the same level or, on the stack that the TSS gives, of an inner one; through a task gate they switch
tasks. A gate whose DPL is below CPL raises the general protection fault with the
vector as error code. -/
def Obligations.SoftwareInterrupts : Prop :=
  ∀ s : State, s.ctx.lock = false →
    (∀ v : Byte, s.canEnter v .software none = true →
      exec (.intIb v) s = .next (complete s (s.entered v .software none s.nextEip))) ∧
    (s.canEnter 3 .software none = true →
      exec .int3 s = .next (complete s (s.entered 3 .software none s.nextEip))) ∧
    (s.of = true → s.canEnter 4 .software none = true →
      exec .into s = .next (complete s (s.entered 4 .software none s.nextEip))) ∧
    ∀ (v : Byte) (g : Desc), s.pe = true → s.gateFor v = some g → g.s = false →
      let interrupts (o : Outcome) : Prop :=
        exec (.intIb v) s = o ∧ (v = 3 → exec .int3 s = o) ∧ (v = 4 → s.of = true → exec .into s = o)
      (g.typ = 5 ∨ g.typ = 14 ∨ g.typ = 15 → g.dpl.toNat < s.cpl.toNat →
        interrupts (s.trapped 13 (some (v.setWidth 16 * 8 + 2)))) ∧
      (∀ d sd, s.entersInner v .software none g d sd →
        interrupts (.next (complete s (s.enteredInner g d sd s.eflags s.nextEip none)))) ∧
      ∀ d, s.entersTask v .software g d →
        (∀ t, s.switchTo g.gateSel d .int s.nextEip s.eflags = .ok t →
          interrupts (.next (complete s (t.taskTrap (s.tssImage d.base))))) ∧
        ∀ t vec code, s.switchTo g.gateSel d .int s.nextEip s.eflags = .error (t, vec, code) →
          (∀ q, t.tableRam q = true) → interrupts (t.trapped vec (some code))

/-- IRET, in real-address mode or with NT = 0 to the same level: CS, EIP and the flags are popped, and NMI service ends. What a
popped image changes, here and in POPF: CF, PF, AF, ZF, SF, TF, DF, OF and NT always, IF where the level does not exceed
IOPL, IOPL at level 0, RF from a 32-bit image of IRET; VM and the reserved bits never. A stack that does not hold the frame
and a return address that fails a check raise their exceptions. With NT = 1 IRET switches to the task that the back link
names; a link that names no busy 386 TSS of the GDT, or an absent one, raises the exception of the rules. A 32-bit image that
would set VM at level 0 is refused: virtual-8086 mode is outside the model. That the back link is read at TR.base also where
TR was never loaded is the model's choice, log 41. -/
def Obligations.ReturnFromException : Prop :=
  ∀ s : State, s.ctx.lock = false →
    (s.canIret = true → exec .iret s = .next (complete s s.iretDone)) ∧
    (s.pe = true → s.nt = false → s.cpl = 0 → s.o32 = true → s.holdsSlots 0 4 3 = true → s.canSlot 0 4 = true →
     s.canSlot 4 2 = true → s.canSlot 8 4 = true → (s.slot 8 4 32).getLsbD 17 = true →
     exec .iret s = .refused .virtual8086) ∧
    (∀ (old image : Dword) (wide : Bool) (lvl : Option (BitVec 2)) (i : Nat), i < 32 →
      let iopl := old.extractLsb' 12 2
      (writeFlags old image wide lvl).getLsbD i =
        if i = 1 then true
        else if i = 0 ∨ i = 2 ∨ i = 4 ∨ i = 6 ∨ i = 7 ∨ i = 8 ∨ i = 10 ∨ i = 11 ∨ i = 14 then image.getLsbD i
        else if i = 9 then
          (if lvl.all fun l => decide (l.toNat ≤ iopl.toNat) then image.getLsbD i else old.getLsbD i)
        else if i = 12 ∨ i = 13 then (if lvl.all fun l => l == 0 then image.getLsbD i else old.getLsbD i)
        else if i = 16 then (if wide then image.getLsbD i else old.getLsbD i)
        else if i = 17 then old.getLsbD i
        else false) ∧
    (let n := s.oszBytes
     let frame := s.canSlot 0 n = true ∧ s.canSlot n n = true ∧ s.canSlot n 2 = true ∧ s.canSlot (2 * n) n = true
     (s.pe = false ∨ s.nt = false → s.holdsSlots 0 n 3 = false → exec .iret s = s.trapped 12 (some 0)) ∧
     (s.pe = false → s.holdsSlots 0 n 3 = true → frame → s.inCode (s.slot 0 n 32) = false →
       exec .iret s = s.trapped 13 (some 0)) ∧
     (s.pe = true → s.nt = false → s.holdsSlots 0 n 3 = true → frame →
       (n == 4 && (s.slot (2 * n) n 32).getLsbD 17 && s.cpl == 0) = false → s.tableRam (s.slot n 2 16) = true →
       ∀ vec code, s.returnFault (s.slot n 2 16) (s.slot 0 n 32) = some (vec, code) →
         exec .iret s = s.trapped vec (some code))) ∧
    (s.pe = true → s.nt = true → s.pg = false → s.ramAt s.tr.base 2 = true →
      let link : Word := s.valueAt 16 (addrsFrom s.tr.base 2)
      (isNull link = true ∨ ti link = true → exec .iret s = s.trapped 10 (some (selCode link))) ∧
      (s.tableRam link = true → s.descFor link = none → exec .iret s = s.trapped 10 (some (selCode link))) ∧
      ∀ d, isNull link = false → ti link = false → s.descFor link = some d →
        (d.s = true ∨ (d.typ ≠ 11 ∧ d.typ ≠ 3) → exec .iret s = s.trapped 10 (some (selCode link))) ∧
        (d.s = false → d.typ = 3 → exec .iret s = .refused .descriptor286) ∧
        (d.s = false → d.typ = 11 → d.p = false → exec .iret s = s.trapped 11 (some (selCode link))) ∧
        (d.s = false → d.typ = 11 → d.p = true → s.canSwitch d .iret = true →
          let ended : State := { s with nmiLatch := false, ctx := { s.ctx with keepRF := true } }
          (∀ t, ended.switchTo link d .iret s.nextEip s.eflags = .ok t →
            exec .iret s = .next (complete s (t.taskTrap (s.tssImage d.base)))) ∧
          ∀ t vec code, ended.switchTo link d .iret s.nextEip s.eflags = .error (t, vec, code) →
            (∀ q, t.tableRam q = true) → exec .iret s = t.trapped vec (some code)))

/-- Which event a boundary takes: the debug trap before NMI before INTR; none of them behind MOV SS or POP SS; NMI not
during NMI service; INTR only with IF set and not behind STI; none in shutdown. The step that takes it acknowledges it (NMI
service begins and the request is gone; the request is gone and the acknowledge cycle is recorded; the trap is no longer
pending), ends the shadows and the halted state, and enters the handler with the EIP of the next instruction, without
error code: on the current stack, on the stack that the TSS gives for a handler of an inner level, or as the task that a
task gate names. While halted with no event nothing happens but the end of the shadows; in shutdown nothing at all. -/
def Obligations.EventPriority : Prop :=
  (∀ s : State,
    (s.inhibitSS = true ∨ s.run = .shutdown → s.pendingEvent = none) ∧
    (s.inhibitSS = false → s.run ≠ .shutdown →
      (s.trapPending = true →
        s.pendingEvent = some { vec := 1, kind := .exception, err := none, taking := .trap }) ∧
      (s.trapPending = false → s.nmi = true → s.nmiLatch = false →
        s.pendingEvent = some { vec := 2, kind := .external, err := none, taking := .nmi }) ∧
      (∀ v, s.trapPending = false → (s.nmi = false ∨ s.nmiLatch = true) → s.intr = some v →
        s.pendingEvent =
          if s.if' && !s.inhibitSTI then some { vec := v, kind := .external, err := none, taking := .intr }
          else none)) ∧
    (s.trapPending = false → (s.nmi = false ∨ s.nmiLatch = true) → s.intr = none → s.pendingEvent = none)) ∧
  ∀ s : State, s.resetPin = false →
    let t : State := { s with inhibitSS := false, inhibitSTI := false, trapPending := false, run := .running }
    let takes (e : Event) (u : State) (kind : EventKind) (vec : Byte) : Prop :=
      s.pendingEvent = some e →
        (u.canEnter vec kind none = true → step s = .next { u.entered vec kind none s.eip with ctx := Ctx.empty }) ∧
        (∀ g d sd, u.entersInner vec kind none g d sd →
          step s = .next { u.enteredInner g d sd s.eflags s.eip none with ctx := Ctx.empty }) ∧
        ∀ g d t, u.entersTask vec kind g d → u.switchTo g.gateSel d .int s.eip s.eflags = .ok t →
          step s = .next { t.taskTrap (s.tssImage d.base) with ctx := Ctx.empty }
    takes { vec := 1, kind := .exception, err := none, taking := .trap } t .exception 1 ∧
    takes { vec := 2, kind := .external, err := none, taking := .nmi } { t with nmi := false, nmiLatch := true }
      .external 2 ∧
    (∀ v, takes { vec := v, kind := .external, err := none, taking := .intr }
      { t with intr := none, ioLog := s.ioLog ++ [.intAck v] } .external v) ∧
    (s.pendingEvent = none → s.run = .halted →
      step s = .next { s with inhibitSS := false, inhibitSTI := false, trapPending := false }) ∧
    (s.run = .shutdown → step s = .next s)

/-- The end of an instruction clears RF, unless the instruction loads it, and makes the single-step trap pending if TF was
set when the instruction began. Going on, EIP becomes the offset after the instruction: in a 32-bit segment, and in a 16-bit
one up to FFFFH; past FFFFFFFFH there, or past FFFFH in real-address mode, it does not wrap silently: execution has run
over. -/
def Obligations.CompletionOfInstruction : Prop :=
  ∀ s t : State,
    (complete s t).ctx = Ctx.empty ∧
    ((complete s t).rf = (t.ctx.keepRF && t.rf)) ∧
    ((complete s t).trapPending = (s.tf || t.trapPending)) ∧
    (s.tf = true → (complete s t).dr6.getLsbD 14 = true) ∧
    (complete s t).gprs = t.gprs ∧ (complete s t).segs = t.segs ∧ (complete s t).eip = t.eip ∧
    (complete s t).mem = t.mem ∧ (∀ i, i ≠ 16 → (complete s t).eflags.getLsbD i = t.eflags.getLsbD i) ∧
    let after := t.eip.toNat + t.ctx.len
    let goes (eip : Nat) : Prop := (s.finish t).eip.toNat = eip ∧ (s.finish t).eipOver = false
    (t.segs.cs.db = true → (after < 2 ^ 32 → goes after) ∧ (2 ^ 32 ≤ after → (s.finish t).eipOver = true)) ∧
    (t.segs.cs.db = false → after ≤ 0xFFFF → goes after) ∧
    (t.segs.cs.db = false → 0xFFFF < after →
      (t.pe = false → (s.finish t).eipOver = true) ∧
      (t.pe = true → after < 2 ^ 32 → goes (if t.segs.cs.limit.toNat < after then after else after % 2 ^ 16)))

/-- An exception met while another is delivered becomes the double fault exactly where both are contributory, or the first
is the page fault and the second contributory or a page fault. -/
def Obligations.DoubleFaultPairs : Prop :=
  ∀ (e : Event) (x : Exc), e.kind = .exception → x.vec ≠ 8 →
    let contributory (v : Byte) : Prop := v = 0 ∨ v = 9 ∨ v = 10 ∨ v = 11 ∨ v = 12 ∨ v = 13
    ((nextEvent e x).vec = 8 ↔
      (contributory e.vec ∧ contributory x.vec) ∨ (e.vec = 14 ∧ (contributory x.vec ∨ x.vec = 14))) ∧
    ((nextEvent e x).vec ≠ 8 → (nextEvent e x).vec = x.vec ∧ (nextEvent e x).err = x.err)

/-! ## Strings and I/O -/

/-- The string instructions without a repeat prefix do one element; with one they do nothing at a count of 0, and
otherwise one element, count down, and stay at the same EIP until the count is 0 or a comparison ends the repetition. -/
def Obligations.StringInstructions : Prop :=
  ∀ (i : Instr) (op : StringOp) (byte : Bool) (s : State), stringForm i = some (op, byte) → s.ctx.lock = false →
    let w := s.elementBits byte
    (s.ctx.rep = none → s.canElement op w = true → exec i s = .next (s.finish (s.element op w))) ∧
    ∀ k, s.ctx.rep = some k →
      (s.count = 0 → exec i s = .next (s.finish s)) ∧
      (s.count ≠ 0 → s.canElement op w = true →
        let t := (s.element op w).decCount
        exec i s = .next (if t.count == 0 || t.ends op k then s.finish t else complete s t))

/-- IN reads a value from the environment into AL, AX or EAX, OUT writes one; the access is recorded. -/
def Obligations.PortAccesses : Prop :=
  ∀ s : State, s.ctx.lock = false →
    let into (port : Word) (w : Nat) : State := (s.portIn port w).setGprLow .eax ((s.any 0).setWidth w : BitVec w)
    let dx := s.gprLow 16 .edx
    (∀ ib : Byte, s.canIo (ib.setWidth 16) 1 = true →
      exec (.inALIb ib) s = .next (s.finish (into (ib.setWidth 16) 8)) ∧
      exec (.outIbAL ib) s = .next (s.finish (s.portOut (ib.setWidth 16) (s.gprLow 8 .eax)))) ∧
    (∀ ib : Byte, s.canIo (ib.setWidth 16) (s.osz / 8) = true →
      exec (.inEAXIb ib) s = .next (s.finish (into (ib.setWidth 16) s.osz)) ∧
      exec (.outIbEAX ib) s = .next (s.finish (s.portOut (ib.setWidth 16) (s.gprLow s.osz .eax)))) ∧
    (s.canIo dx 1 = true →
      exec .inALDX s = .next (s.finish (into dx 8)) ∧
      exec .outDXAL s = .next (s.finish (s.portOut dx (s.gprLow 8 .eax)))) ∧
    (s.canIo dx (s.osz / 8) = true →
      exec .inEAXDX s = .next (s.finish (into dx s.osz)) ∧
      exec .outDXEAX s = .next (s.finish (s.portOut dx (s.gprLow s.osz .eax))))

/-- In protected mode with CPL above IOPL, a port whose bits in the I/O permission map are not all clear, or that the map
does not reach, raises the general protection fault, in every form of IN and OUT and at each element of INS and OUTS. That
a TR that was never loaded gives no map is the model's choice, log 41. -/
def Obligations.IoMapRefuses : Prop :=
  ∀ (s : State), s.ctx.lock = false → s.portsFree = false → s.tssRam = true →
    let refuses (i : Instr) : Prop := exec i s = s.trapped 13 (some 0)
    let dx := s.gprLow 16 .edx
    (∀ ib : Byte, s.mapAllows (ib.setWidth 16) 1 = false → refuses (.inALIb ib) ∧ refuses (.outIbAL ib)) ∧
    (∀ ib : Byte, s.mapAllows (ib.setWidth 16) (s.osz / 8) = false →
      refuses (.inEAXIb ib) ∧ refuses (.outIbEAX ib)) ∧
    (s.mapAllows dx 1 = false → refuses .inALDX ∧ refuses .outDXAL ∧
      (s.ctx.rep = none ∨ s.count ≠ 0 → refuses .insb ∧ refuses .outsb)) ∧
    (s.mapAllows dx (s.osz / 8) = false → refuses .inEAXDX ∧ refuses .outDXEAX ∧
      (s.ctx.rep = none ∨ s.count ≠ 0 → refuses .insv ∧ refuses .outsv))

/-! ## Flags and processor control -/

/-- CLC, STC, CMC, CLD and STD, from their opcodes: the one flag they write, and nothing else. -/
def Obligations.CarryAndDirectionFlags : Prop :=
  (∀ c : DecodeCtx,
    (decodeOne c).run [0xF8] = .ok (.clc, []) ∧ (decodeOne c).run [0xF9] = .ok (.stc, []) ∧
    (decodeOne c).run [0xF5] = .ok (.cmc, []) ∧ (decodeOne c).run [0xFC] = .ok (.cld, []) ∧
    (decodeOne c).run [0xFD] = .ok (.std, [])) ∧
  ∀ s : State, s.ctx.lock = false →
    exec .clc s = .next (s.finish { s with eflags := s.eflags &&& ~~~1#32 }) ∧
    exec .stc s = .next (s.finish { s with eflags := s.eflags ||| 1#32 }) ∧
    exec .cmc s = .next (s.finish { s with eflags := s.eflags ^^^ 1#32 }) ∧
    exec .cld s = .next (s.finish { s with eflags := s.eflags &&& ~~~0x400#32 }) ∧
    exec .std s = .next (s.finish { s with eflags := s.eflags ||| 0x400#32 })

/-- LAHF copies the low byte of EFLAGS to AH: SF, ZF, 0, AF, 0, PF, 1 and CF from bit 7 down, where the fixed bits stand as
they must; no flag changes. SAHF loads SF, ZF, AF, PF and CF from AH and leaves every other bit of
EFLAGS; NOP only goes on. From their opcodes. -/
def Obligations.FlagsInAhAndNop : Prop :=
  (∀ c : DecodeCtx,
    (decodeOne c).run [0x9F] = .ok (.lahf, []) ∧ (decodeOne c).run [0x9E] = .ok (.sahf, []) ∧
    (decodeOne c).run [0x90] = .ok (.nop, [])) ∧
  ∀ s : State, s.ctx.lock = false →
    (let ah : Byte := s.eflags.setWidth 8
     exec .lahf s = .next (s.finish (s.setReg8 .ah ah)) ∧
     (s.eflags &&& 0x2A = 2 →
       (List.range 8).map ah.getLsbD = [s.cf, true, s.pf, false, s.af, false, s.zf, s.sf])) ∧
    exec .sahf s = .next (s.finish
      { s with eflags := (s.eflags &&& ~~~0xD5#32) ||| ((s.reg8 .ah).setWidth 32 &&& 0xD5#32) }) ∧
    exec .nop s = .next (s.finish s)

/-- CLI and STI where CPL does not exceed IOPL, HLT at level 0, WAIT and the ESC opcodes without a coprocessor: the
interrupt flag with the shadow of STI, the halted state, and nothing. -/
def Obligations.ProcessorControl : Prop :=
  ∀ s : State, s.ctx.lock = false →
    (s.ioSensitive = true →
      exec .cli s = .next (s.finish { s with eflags := s.eflags &&& ~~~0x200#32 }) ∧
      exec .sti s = .next (s.finish { s with eflags := s.eflags ||| 0x200#32, inhibitSTI := !s.if' })) ∧
    (s.privileged = true → exec .hlt s = .next (s.finish { s with run := .halted })) ∧
    ((s.mp && s.ts) = false → exec .wait s = .next (s.finish s)) ∧
    ((s.mp && s.ts) = true → exec .wait s = s.trapped 7 none) ∧
    ∀ (op : BitVec 3) (e : RM Gpr),
      ∀ i ∈ [Instr.esc0 op e, .esc1 op e, .esc2 op e, .esc3 op e, .esc4 op e, .esc5 op e, .esc6 op e, .esc7 op e],
        ((s.em || s.ts) = false → exec i s = .next (s.finish s)) ∧
        ((s.em || s.ts) = true → exec i s = s.trapped 7 none)

/-! ## System instructions -/

/-- In protected mode at a level other than 0 every privileged instruction raises the general protection fault with error
code 0 and has no effect; CLI and STI do so where CPL exceeds IOPL. -/
def Obligations.PrivilegeFaults : Prop :=
  ∀ s : State, s.ctx.lock = false → s.pe = true →
    (s.cpl ≠ 0 →
      exec .hlt s = s.trapped 13 (some 0) ∧ exec .clts s = s.trapped 13 (some 0) ∧
      (∀ m, exec (.lgdtMs m) s = s.trapped 13 (some 0) ∧ exec (.lidtMs m) s = s.trapped 13 (some 0)) ∧
      (∀ e, exec (.lldtEw e) s = s.trapped 13 (some 0) ∧ exec (.ltrEw e) s = s.trapped 13 (some 0) ∧
        exec (.lmswEw e) s = s.trapped 13 (some 0)) ∧
      (∀ r, ∀ n ∈ [0#3, 2#3, 3#3],
        exec (.movCdRd n r) s = s.trapped 13 (some 0) ∧ exec (.movRdCd r n) s = s.trapped 13 (some 0)) ∧
      (∀ r, ∀ n ∈ [0#3, 1#3, 2#3, 3#3, 6#3, 7#3],
        exec (.movDdRd n r) s = s.trapped 13 (some 0) ∧ exec (.movRdDd r n) s = s.trapped 13 (some 0)) ∧
      ∀ r, ∀ n ∈ [6#3, 7#3],
        exec (.movTdRd n r) s = s.trapped 13 (some 0) ∧ exec (.movRdTd r n) s = s.trapped 13 (some 0)) ∧
    (s.iopl.toNat < s.cpl.toNat →
      exec .cli s = s.trapped 13 (some 0) ∧ exec .sti s = s.trapped 13 (some 0))

/-- LGDT and LIDT load a limit and a base of 32 or 24 bits; SGDT and SIDT store them at any level; LMSW writes PE to TS
without clearing PE; SMSW stores the low half of CR0, its undefined bits open; CLTS clears TS. -/
def Obligations.TableRegistersAndMsw : Prop :=
  ∀ s : State, s.ctx.lock = false →
    (∀ m, s.privileged = true → s.reachable (s.effSeg m) (s.effOff m) 6 false = true →
      exec (.lgdtMs m) s = .next (s.finish { s with gdtr := s.tableAt m }) ∧
      exec (.lidtMs m) s = .next (s.finish { s with idtr := s.tableAt m })) ∧
    (∀ m, s.reachable (s.effSeg m) (s.effOff m) 6 true = true →
      exec (.sgdtMs m) s = .next (s.finish (s.tableStored m s.gdtr)) ∧
      exec (.sidtMs m) s = .next (s.finish (s.tableStored m s.idtr))) ∧
    (∀ e, s.privileged = true → s.okV 16 e false = true →
      let v := s.getV 16 e
      exec (.lmswEw e) s = .next (s.finish { s with
        cr0 := (s.cr0 &&& 0xFFFFFFF1) ||| (v.setWidth 32 &&& 0xF) })) ∧
    (∀ e, s.okV 16 e true = true →
      let msw : Word := ((s.cr0 &&& 0x1F) ||| (s.any 0 &&& 0xFFE0)).setWidth 16
      exec (.smswEw e) s = .next (s.finish ((s.drawn 1).putWord e msw))) ∧
    (s.privileged = true → exec .clts s = .next (s.finish { s with cr0 := s.cr0 &&& ~~~8#32 }))

/-- LLDT and LTR load LDTR and TR from a descriptor of the GDT, LTR marking the TSS busy; a null selector empties LDTR. A
selector that names the LDT, lies outside the GDT or names a descriptor of the wrong type, a busy TSS among them, is a
general protection fault with the selector as error code, one that is not present exception 11; LTR of a null selector is
the general protection fault with code 0. SLDT and STR store the selectors at any level. In real-address mode all four are
invalid opcodes. LTR refuses an 80286 TSS: outside the model. -/
def Obligations.SystemSegmentRegisters : Prop :=
  ∀ (s : State) (e : RM Gpr), s.ctx.lock = false →
    (s.pe = false →
      exec (.lldtEw e) s = s.trapped 6 none ∧ exec (.ltrEw e) s = s.trapped 6 none ∧
      exec (.sldtEw e) s = s.trapped 6 none ∧ exec (.strEw e) s = s.trapped 6 none) ∧
    (s.pe = true → s.okV 16 e true = true →
      exec (.sldtEw e) s = .next (s.finish (s.putWord e s.ldtr.sel)) ∧
      exec (.strEw e) s = .next (s.finish (s.putWord e s.tr.sel))) ∧
    (s.pe = true → s.cpl = 0 → s.okV 16 e false = true →
      let sel := s.getV 16 e
      (isNull sel = true →
        exec (.lldtEw e) s = .next (s.finish { s with ldtr := { s.ldtr with sel := sel, valid := false } })) ∧
      (isNull sel = true ∨ ti sel = true ∨ s.tableRam sel = true → ∀ vec code,
        (s.lldtFault sel = some (vec, code) → exec (.lldtEw e) s = s.trapped vec (some code)) ∧
        (s.ltrFault sel = some (vec, code) → exec (.ltrEw e) s = s.trapped vec (some code))) ∧
      ∀ d, isNull sel = false → ti sel = false → s.descFor sel = some d →
        (d.isLdt = true → exec (.lldtEw e) s = .next (s.finish { s with ldtr := d.toSys sel })) ∧
        (d.isFreeTss = true →
          exec (.ltrEw e) s = .next (s.finish
            { s.storeByte (d.addr + 5) (s.byteAt (d.addr + 5) ||| 2) with tr := d.toSys sel })) ∧
        (d.s = false → d.typ = 1 → exec (.ltrEw e) s = .refused .descriptor286))

/-- MOV to and from the control, debug and test registers: CR1, CR4 to CR7, DR4, DR5 and TR0 to TR5 are invalid opcodes; a
load of CR0 that sets PG without PE is a general protection fault; a load of CR3 empties the TLB and so orders translation:
with paging on, the next access of any page walks the tables as they then stand. The six status flags are open afterwards, and so are the reserved bits of CR0, CR3, TR6 and TR7 where they are read (log 28 for TR6 and TR7).
Loading TR6 runs the TLB test command: a write places an entry; a lookup that finds exactly one sets the pairs of TR6 and
HT, the address and REP of TR7 from it; one that finds none clears HT and leaves the address and REP of TR7 open; how many
open values they draw, that they clear the reserved bits of TR7, and that the miss keeps TR6, is the model's choice, log
21. A DR7 that enables a breakpoint is refused: outside the model. -/
def Obligations.SpecialRegisterMoves : Prop :=
  ∀ (s : State) (r : Gpr), s.ctx.lock = false →
    let v := s.gpr r
    let done (t : State) : State := s.finish ((t.drawn 1).setFlags (Flags.free (t.any 0)))
    (∀ n ∈ [1#3, 4#3, 5#3, 6#3, 7#3],
      exec (.movRdCd r n) s = s.trapped 6 none ∧ exec (.movCdRd n r) s = s.trapped 6 none) ∧
    (∀ n ∈ [4#3, 5#3], exec (.movRdDd r n) s = s.trapped 6 none ∧ exec (.movDdRd n r) s = s.trapped 6 none) ∧
    (∀ n ∈ [0#3, 1#3, 2#3, 3#3, 4#3, 5#3],
      exec (.movRdTd r n) s = s.trapped 6 none ∧ exec (.movTdRd n r) s = s.trapped 6 none) ∧
    (s.privileged = true →
      exec (.movRdCd r 0) s =
        .next (done ((s.drawn 1).setGpr r ((s.cr0 &&& 0x8000001F) ||| (s.any 0 &&& 0x7FFFFFE0)))) ∧
      exec (.movRdCd r 2) s = .next (done (s.setGpr r s.cr2)) ∧
      exec (.movRdCd r 3) s =
        .next (done ((s.drawn 1).setGpr r ((s.cr3 &&& 0xFFFFF000) ||| (s.any 0 &&& 0xFFF)))) ∧
      (v.getLsbD 31 = true → v.getLsbD 0 = false → exec (.movCdRd 0 r) s = s.trapped 13 (some 0)) ∧
      (v.getLsbD 31 = false ∨ v.getLsbD 0 = true →
        exec (.movCdRd 0 r) s = .next (done { s with cr0 := v &&& 0x8000001F })) ∧
      exec (.movCdRd 2 r) s = .next (done { s with cr2 := v }) ∧
      exec (.movCdRd 3 r) s = .next (done { s with
        cr3 := v &&& 0xFFFFF000, tlb := s.tlb.map fun e => { e with v := false }, tlbDup := [] }) ∧
      (∀ t, exec (.movCdRd 3 r) s = .next t → s.pg = true → ∀ (la : Dword) (write user : Bool),
        translate la write user (Tx.start t) = pageWalk la write user (Tx.start t)) ∧
      exec (.movRdDd r 0) s = .next (done (s.setGpr r s.dr0)) ∧
      exec (.movRdDd r 1) s = .next (done (s.setGpr r s.dr1)) ∧
      exec (.movRdDd r 2) s = .next (done (s.setGpr r s.dr2)) ∧
      exec (.movRdDd r 3) s = .next (done (s.setGpr r s.dr3)) ∧
      exec (.movRdDd r 6) s = .next (done (s.setGpr r s.dr6)) ∧
      exec (.movRdDd r 7) s = .next (done (s.setGpr r s.dr7)) ∧
      exec (.movDdRd 0 r) s = .next (done { s with dr0 := v }) ∧
      exec (.movDdRd 1 r) s = .next (done { s with dr1 := v }) ∧
      exec (.movDdRd 2 r) s = .next (done { s with dr2 := v }) ∧
      exec (.movDdRd 3 r) s = .next (done { s with dr3 := v }) ∧
      exec (.movDdRd 6 r) s = .next (done { s with dr6 := v }) ∧
      (v &&& 0x20FF = 0 → exec (.movDdRd 7 r) s = .next (done { s with dr7 := v })) ∧
      (v &&& 0x20FF ≠ 0 → exec (.movDdRd 7 r) s = .refused .breakpointEnabled) ∧
      exec (.movRdTd r 6) s =
        .next (done ((s.drawn 1).setGpr r ((s.tr6 &&& 0xFFFFFFE1) ||| (s.any 0 &&& 0x1E)))) ∧
      exec (.movRdTd r 7) s =
        .next (done ((s.drawn 1).setGpr r ((s.tr7 &&& 0xFFFFF01C) ||| (s.any 0 &&& 0xFE3)))) ∧
      exec (.movTdRd 7 r) s = .next (done { s with tr7 := v }) ∧
      (v.getLsbD 0 = false → s.tr7.getLsbD 4 = true → s.duplicateTag v (s.tr7.extractLsb' 2 2).toNat = false →
        exec (.movTdRd 6 r) s = .next (done
          ((({ s with tr6 := v } : State).drawn 1).setTlbEntry v (s.tr7.extractLsb' 2 2).toNat
            (testEntry v s.tr7 (s.any 0))))) ∧
      (v.getLsbD 0 = true → v.getLsbD 11 = true → s.tlbDup.contains (tlbTag v) = false →
        ((∀ way < 4, s.wayMatches v way = false) →
          exec (.movTdRd 6 r) s =
            .next (done (({ s with tr6 := v, tr7 := s.any 0 &&& 0xFFFFF00C } : State).drawn 5))) ∧
        ∀ way < 4, s.wayMatches v way = true → (∀ other < 4, other ≠ way → s.wayMatches v other = false) →
          let e := s.tlbEntry v way
          exec (.movTdRd 6 r) s =
            .next (done (({ s with
              tr6 := e.foundIn v, tr7 := e.frame ++ BitVec.ofNat 12 (16 + 4 * way) } : State).drawn 5))))

/-- ARPL raises the RPL of its destination to that of its source; LAR, LSL, VERR and VERW look at a descriptor without
loading it, and answer in ZF whether it may be used, LAR and LSL with its access rights or its limit. VERR accepts readable
segments, VERW writable data segments, LAR every segment and the system types 1 to 5, 9, 11 and 12, LSL every segment and
the types 1, 2, 3, 9 and 11; all but conforming code only where its DPL admits CPL and RPL, VERW always so. In real-address
mode the five are invalid opcodes. -/
def Obligations.ProtectionProbes : Prop :=
  ∀ (s : State) (e : RM Gpr) (g : Gpr), s.ctx.lock = false →
    (s.pe = false →
      exec (.arplEwGw e g) s = s.trapped 6 none ∧ exec (.larGvEw g e) s = s.trapped 6 none ∧
      exec (.lslGvEw g e) s = s.trapped 6 none ∧ exec (.verrEw e) s = s.trapped 6 none ∧
      exec (.verwEw e) s = s.trapped 6 none) ∧
    (s.pe = true → s.okV 16 e true = true →
      let d := s.getV 16 e
      let r := rpl (s.gprLow 16 g)
      exec (.arplEwGw e g) s = .next (s.finish
        (if (rpl d).toNat < r.toNat then (s.putV e (withRpl d r)).putFlag 6 true else s.putFlag 6 false))) ∧
    (s.pe = true → s.okV 16 e false = true → s.tableRam (s.getV 16 e) = true →
      let sel := s.getV 16 e
      let ok (p : Desc → Bool) : Bool := (s.probed sel).any p
      exec (.verrEw e) s = .next (s.finish (s.putFlag 6 (ok fun d => readOk s d sel))) ∧
      exec (.verwEw e) s = .next (s.finish (s.putFlag 6 (ok fun d => writeOk s d sel))) ∧
      (ok (fun d => d.larType && s.reaches d sel) = false →
        exec (.larGvEw g e) s = .next (s.finish (s.putFlag 6 false))) ∧
      (ok (fun d => d.lslType && s.reaches d sel) = false →
        exec (.lslGvEw g e) s = .next (s.finish (s.putFlag 6 false))) ∧
      ∀ d, s.probed sel = some d →
        (d.larType = true → s.reaches d sel = true →
          let hi : Dword := d.raw.extractLsb' 32 32
          exec (.larGvEw g e) s = .next (s.finish
            ((if s.o32 then
                (s.drawn 1).setGpr g ((hi &&& 0x00F0FF00) ||| (s.any 0 &&& 0x000F0000))
              else s.setGprLow g ((hi.setWidth 16 : Word) &&& 0xFF00)).putFlag 6 true))) ∧
        (d.lslType = true → s.reaches d sel = true →
          exec (.lslGvEw g e) s = .next (s.finish ((s.setGprLow g (d.limit32.setWidth s.osz)).putFlag 6 true)))) ∧
    ∀ (d : Desc) (sel : Word),
      let segment := d.raw.getLsbD 44
      let code := d.raw.getLsbD 43
      let conforming := d.raw.getLsbD 42
      let open' := d.raw.getLsbD 41
      let typ := (d.raw.extractLsb' 40 4).toNat
      let dpl := (d.raw.extractLsb' 45 2).toNat
      let admits := s.cpl.toNat ≤ dpl ∧ (sel.extractLsb' 0 2).toNat ≤ dpl
      let reached := (segment = true ∧ code = true ∧ conforming = true) ∨ admits
      (s.reaches d sel = true ↔ reached) ∧
      (readOk s d sel = true ↔ segment = true ∧ (code = true → open' = true) ∧ reached) ∧
      (writeOk s d sel = true ↔ segment = true ∧ code = false ∧ open' = true ∧ admits) ∧
      (d.larType = true ↔ segment = true ∨ typ ∈ [1, 2, 3, 4, 5, 9, 11, 12]) ∧
      (d.lslType = true ↔ segment = true ∨ typ ∈ [1, 2, 3, 9, 11])
end

