-- ==== Sys2Proof/Laws/Memory.lean ====
section
/-! SUPPORT. Laws of physical memory: reads and writes of the cell list, its canonical form, and the state operations
built on them. -/

namespace Sys2Proof.Machine

/-! ## The cell list -/

/-- An address below all listed ones reads as 00H. -/
theorem memGet_eq_zero_of_lt (m : List Host.Cell) (x : Nat) (h : ∀ c ∈ m, x < c.1) : memGet m x = 0 := by
  induction m with
  | nil => rfl
  | cons c rest ih =>
    obtain ⟨a, b⟩ := c
    have ha : x < a := h (a, b) (by simp)
    simp only [memGet]
    rw [if_neg (by omega)]
    exact ih fun c hc => h c (by simp [hc])

/-- Memory in rising order of addresses. -/
abbrev Rising (m : List Host.Cell) : Prop := List.Pairwise (fun a b => a.1 < b.1) m

/-- A byte just written reads back; every other byte reads as before. -/
theorem memGet_memSet (m : List Host.Cell) (h : Rising m) (x y : Nat) (v : Byte) :
    memGet (memSet m x v) y = if y = x then v else memGet m y := by
  induction m with
  | nil =>
    simp only [memSet]
    by_cases hv : v = 0
    · rw [if_pos hv]
      simp [memGet, hv]
    · rw [if_neg hv]
      simp only [memGet, @eq_comm _ x y]
  | cons c rest ih =>
    obtain ⟨a, b⟩ := c
    have hr := List.pairwise_cons.mp h
    have hz : ∀ z, z ≤ a → memGet rest z = 0 := fun z hz =>
      memGet_eq_zero_of_lt rest z fun c hc => by have := hr.1 c hc; simp only at this; omega
    simp only [memSet]
    by_cases h1 : x < a
    · rw [if_pos h1]
      by_cases hv : v = 0
      · rw [if_pos hv]
        by_cases hy : y = x
        · subst hy
          simp [memGet, hv, hz y (by omega), show a ≠ y by omega]
        · simp [hy]
      · rw [if_neg hv]
        simp only [memGet]
        by_cases hy : y = x
        · simp [hy]
        · rw [if_neg (fun e => hy e.symm), if_neg hy]
    · rw [if_neg h1]
      by_cases h2 : x = a
      · subst h2
        rw [if_pos rfl]
        by_cases hv : v = 0
        · rw [if_pos hv]
          by_cases hy : y = x
          · subst hy
            simp [hz y (by omega), hv]
          · simp [memGet, hy, show x ≠ y from fun e => hy e.symm]
        · rw [if_neg hv]
          simp only [memGet]
          by_cases hy : y = x
          · simp [hy]
          · rw [if_neg (fun e => hy e.symm), if_neg hy, if_neg (fun e => hy e.symm)]
      · rw [if_neg h2]
        simp only [memGet]
        by_cases hy : a = y
        · subst hy
          simp [show a ≠ x from fun e => h2 e.symm]
        · rw [if_neg hy, if_neg hy]
          exact ih hr.2

/-- Every address of a changed memory was there before or is the one written. -/
theorem mem_memSet (m : List Host.Cell) (x : Nat) (v : Byte) (c : Host.Cell) (h : c ∈ memSet m x v) :
    c ∈ m ∨ (c = (x, v) ∧ v ≠ 0) := by
  induction m with
  | nil => by_cases hv : v = 0 <;> simp_all [memSet]
  | cons d rest ih =>
    obtain ⟨a, b⟩ := d
    simp only [memSet] at h
    by_cases h1 : x < a
    · rw [if_pos h1] at h
      by_cases hv : v = 0
      · rw [if_pos hv] at h
        exact .inl h
      · rw [if_neg hv] at h
        rcases List.mem_cons.mp h with h | h
        · exact .inr ⟨h, hv⟩
        · exact .inl h
    · rw [if_neg h1] at h
      by_cases h2 : x = a
      · subst h2
        rw [if_pos rfl] at h
        by_cases hv : v = 0
        · rw [if_pos hv] at h
          exact .inl (by simp [h])
        · rw [if_neg hv] at h
          rcases List.mem_cons.mp h with h | h
          · exact .inr ⟨h, hv⟩
          · exact .inl (by simp [h])
      · rw [if_neg h2] at h
        rcases List.mem_cons.mp h with h | h
        · exact .inl (by simp [h])
        · rcases ih h with h | h
          · exact .inl (by simp [h])
          · exact .inr h

/-- A write keeps the addresses rising. -/
theorem memSet_rising (m : List Host.Cell) (h : Rising m) (x : Nat) (v : Byte) : Rising (memSet m x v) := by
  induction m with
  | nil =>
    simp only [memSet]
    split <;> simp [Rising]
  | cons c rest ih =>
    obtain ⟨a, b⟩ := c
    have hr := List.pairwise_cons.mp h
    simp only [memSet]
    split
    · rename_i h1
      split
      · exact h
      · refine List.pairwise_cons.mpr ⟨fun c hc => ?_, h⟩
        rcases List.mem_cons.mp hc with hc | hc
        · simp [hc, h1]
        · have := hr.1 c hc
          simp only at this ⊢
          omega
    · rename_i h1
      split
      · rename_i h2
        split
        · exact hr.2
        · exact List.pairwise_cons.mpr ⟨hr.1, hr.2⟩
      · rename_i h2
        refine List.pairwise_cons.mpr ⟨fun c hc => ?_, ih hr.2⟩
        rcases mem_memSet rest x v c hc with hc | hc
        · exact hr.1 c hc
        · simp only [hc.1]
          omega

/-- The canonical form, taken apart. -/
theorem memory_wf_iff (m : List Host.Cell) :
    Memory.wf m = true ↔ Rising m ∧ ∀ c ∈ m, c.2 ≠ 0 ∧ c.1 < 2 ^ 32 := by
  simp [Memory.wf, Rising, List.all_eq_true]

/-- A write to an address of the 32-bit space keeps the canonical form. -/
theorem memSet_wf (m : List Host.Cell) (h : Memory.wf m = true) (x : Nat) (hx : x < 2 ^ 32) (v : Byte) :
    Memory.wf (memSet m x v) = true := by
  rw [memory_wf_iff] at h ⊢
  refine ⟨memSet_rising m h.1 x v, fun c hc => ?_⟩
  rcases mem_memSet m x v c hc with hc | hc
  · exact h.2 c hc
  · simpa [hc.1] using ⟨hc.2, hx⟩

/-- Reset memory has the canonical form. -/
theorem reset_memory_wf : Memory.wf State.reset.mem = true := by decide

/-! ## Storing through the state -/

/-- A stored byte keeps the canonical form. -/
theorem storeByte_wf (s : State) (pa : Dword) (b : Byte) (h : Memory.wf s.mem = true) :
    Memory.wf (s.storeByte pa b).mem = true := by
  unfold State.storeByte
  split
  · exact memSet_wf _ h _ pa.isLt _
  all_goals exact h

/-- Storing a byte changes the memory alone. -/
theorem storeByte_eq (s : State) (pa : Dword) (b : Byte) :
    s.storeByte pa b = { s with mem := (s.storeByte pa b).mem } := by
  unfold State.storeByte
  split <;> rfl

/-- Storing bytes changes the memory alone. -/
theorem storeBytes_eq (s : State) (pas : List Dword) (bs : List Byte) :
    s.storeBytes pas bs = { s with mem := (s.storeBytes pas bs).mem } := by
  unfold State.storeBytes
  generalize pas.zip bs = cs
  induction cs generalizing s with
  | nil => rfl
  | cons c rest ih =>
    simp only [List.foldl_cons]
    rw [ih (s.storeByte c.1 c.2), storeByte_eq s c.1 c.2]

/-- Stored bytes keep the canonical form. -/
theorem storeBytes_wf (s : State) (pas : List Dword) (bs : List Byte) (h : Memory.wf s.mem = true) :
    Memory.wf (s.storeBytes pas bs).mem = true := by
  unfold State.storeBytes
  generalize pas.zip bs = cs
  induction cs generalizing s with
  | nil => exact h
  | cons c rest ih => exact ih _ (storeByte_wf s c.1 c.2 h)

/-- The map of regions is not memory: no store changes what stands at an address. -/
@[simp] theorem storeByte_kindAt (s : State) (pa : Dword) (b : Byte) (x : Nat) :
    (s.storeByte pa b).kindAt x = s.kindAt x := by
  rw [storeByte_eq]
  rfl

/-- What a RAM byte reads as after a store: the new byte at its address, the old one elsewhere. -/
theorem storeByte_byteAt (s : State) (h : Rising s.mem) (pa x : Dword) (b : Byte) (hr : s.kindAt pa.toNat = .ram) :
    (s.storeByte pa b).byteAt x = if x = pa then b else s.byteAt x := by
  unfold State.storeByte State.byteAt
  rw [hr]
  simp only [memGet_memSet _ h, BitVec.toNat_inj]

/-- No byte that is not among the addresses of a store changes. -/
theorem storeBytes_byteAt_of_not_mem (s : State) (h : Memory.wf s.mem = true) (pas : List Dword) (bs : List Byte)
    (x : Dword) (hx : x ∉ pas) : (s.storeBytes pas bs).byteAt x = s.byteAt x := by
  induction pas generalizing s bs with
  | nil => rfl
  | cons pa rest ih =>
    cases bs with
    | nil => rfl
    | cons b bs =>
      have hne : x ≠ pa := fun e => hx (by simp [e])
      have hkeep : (s.storeByte pa b).byteAt x = s.byteAt x := by
        cases hk : s.kindAt pa.toNat with
        | ram => rw [storeByte_byteAt s ((memory_wf_iff _).mp h).1 pa x b hk, if_neg hne]
        | rom => simp [State.storeByte, hk]
        | device => simp [State.storeByte, hk]
        | absent => simp [State.storeByte, hk]
      exact (ih (s.storeByte pa b) (storeByte_wf s pa b h) bs fun hm => hx (by simp [hm])).trans hkeep

end Sys2Proof.Machine
end

