-- ==== Sys2Proof/Laws/Run.lean ====
section
/-! SUPPORT. What each shared operation does when it runs: one lemma per operation, which proofs cite instead of
unfolding it. Operands are taken with paging off, as in Safety.lean. -/

namespace Sys2Proof.Machine

variable {α β : Type}

/-! ## Computations -/

/-- Sequencing. -/
theorem bind_run (x : M α) (f : α → M β) (t : Tx) :
    (x >>= f) t = match x t with
      | .ok a t' => f a t'
      | .error e t' => .error e t' := by
  cases h : x t <;> simp [bind, EStateM.bind, h]

/-- Sequencing after a computation that succeeds. -/
theorem bind_run_ok {x : M α} {f : α → M β} {t t' : Tx} {a : α} (h : x t = .ok a t') : (x >>= f) t = f a t' := by
  rw [bind_run, h]

/-- Sequencing after a computation that stops. -/
theorem bind_run_error {x : M α} {f : α → M β} {t t' : Tx} {e : Stop} (h : x t = .error e t') :
    (x >>= f) t = .error e t' := by
  rw [bind_run, h]

@[simp] theorem pure_run (a : α) (t : Tx) : (pure a : M α) t = .ok a t := rfl
@[simp] theorem look_run (f : State → α) (t : Tx) : look f t = .ok (f t.cur) t := rfl
@[simp] theorem upd_run (f : State → State) (t : Tx) : upd f t = .ok () { t with cur := f t.cur } := rfl
@[simp] theorem updBoth_run (f : State → State) (t : Tx) :
    updBoth f t = .ok () { t with cur := f t.cur, base := f t.base } := rfl
@[simp] theorem commit_run (t : Tx) : commit t = .ok () { t with base := t.cur } := rfl
@[simp] theorem raise_run (v : Byte) (e : Option Word) (t : Tx) :
    (raise v e : M α) t = .error (.raise { vec := v, err := e }) t := rfl
@[simp] theorem refuse_run (r : Refusal) (t : Tx) : (refuse r : M α) t = .error (.refuse r) t := rfl
@[simp] theorem raisePlain_run (v : Byte) (t : Tx) :
    (raisePlain v : M α) t = .error (.raise { vec := v, err := none }) t := rfl
@[simp] theorem raiseCode_run (v : Byte) (c : Word) (t : Tx) :
    (raiseCode v c : M α) t = .error (.raise { vec := v, err := some (c ||| bitVal t.ext) }) t := rfl
@[simp] theorem anyD_run (t : Tx) :
    anyD t = .ok (Config.freeValue t.cur.freeCtr) { t with cur := t.cur.drawn 1, base := t.base.drawn 1 } := rfl
@[simp] theorem anyBits_run (w : Nat) (t : Tx) :
    anyBits w t = .ok ((Config.freeValue t.cur.freeCtr).setWidth w)
      { t with cur := t.cur.drawn 1, base := t.base.drawn 1 } := rfl

/-- `need` goes on where its condition holds. -/
@[simp] theorem need_true (act : M Unit) (t : Tx) : need true act t = .ok () t := rfl
/-- `need` acts where its condition fails. -/
@[simp] theorem need_false (act : M Unit) (t : Tx) : need false act t = act t := rfl

/-- A conditional computation, run. -/
@[simp] theorem ite_run (c : Prop) [Decidable c] (x y : M α) (t : Tx) :
    (if c then x else y) t = if c then x t else y t := by
  split <;> rfl

/-- The meaning at the operand size in force. -/
theorem withOsz_run (f : (w : Nat) → M Unit) (t : Tx) : withOsz f t = f t.cur.osz t := by
  cases h : t.cur.o32 <;> simp [withOsz, bind_run, State.osz, h]

/-! ## Physical memory -/

/-- The environment sees nothing of an access to RAM. -/
theorem showDevice_run (e : List Host.Cell → IoEvent) (pas : List Dword) (bs : List Byte) (t : Tx)
    (h : ∀ pa ∈ pas, t.cur.kindAt pa.toNat = .ram) : showDevice e pas bs t = .ok () t := by
  have hd : t.cur.deviceCells pas bs = [] := by
    simp only [State.deviceCells, List.filter_eq_nil_iff]
    intro c hc
    obtain ⟨pa, hpa, he⟩ := List.mem_map.mp (List.of_mem_zip hc).1
    simp [← he, h pa hpa]
  simp [showDevice, bind_run, hd]

/-- The bytes of RAM at some addresses are read without any other effect. -/
theorem readPhys_run (pas : List Dword) (t : Tx) (h : ∀ pa ∈ pas, t.cur.kindAt pa.toNat = .ram) :
    readPhys pas t = .ok (pas.map t.cur.byteAt) t := by
  have hm : ∀ pas : List Dword, (∀ pa ∈ pas, t.cur.kindAt pa.toNat = .ram) →
      (pas.mapM readByte) t = .ok (pas.map t.cur.byteAt) t := by
    intro pas
    induction pas with
    | nil => intro _; rfl
    | cons p ps ih =>
      intro hh
      have hp : readByte p t = .ok (t.cur.byteAt p) t := by
        simp [readByte, bind_run, hh p (by simp)]
      rw [List.mapM_cons, bind_run_ok hp, bind_run_ok (ih fun pa hpa => hh pa (by simp [hpa]))]
      rfl
  unfold readPhys
  rw [bind_run_ok (hm pas h), bind_run_ok (showDevice_run _ _ _ t h)]
  rfl

/-- Bytes are written to RAM without any other effect. -/
theorem writePhys_run (pas : List Dword) (bs : List Byte) (t : Tx)
    (h : ∀ pa ∈ pas, t.cur.kindAt pa.toNat = .ram) :
    writePhys pas bs t = .ok () { t with cur := t.cur.storeBytes pas bs } := by
  unfold writePhys
  rw [bind_run_ok (showDevice_run _ _ _ t h)]
  rfl

/-- A page-table entry in RAM gets more bits in its lowest byte, for good, and no other effect. -/
theorem markEntry_run (pa entry : Dword) (bits : Byte) (t : Tx)
    (h : ∀ a ∈ addrsFrom pa 4, t.cur.kindAt a.toNat = .ram) :
    markEntry pa entry bits t =
      .ok () { t with cur := t.cur.storeByte pa (t.cur.byteAt pa ||| bits)
                      base := t.base.storeByte pa (t.base.byteAt pa ||| bits) } := by
  unfold markEntry
  rw [bind_run_ok (showDevice_run _ _ _ t h)]
  rfl

/-- Two stretches of addresses that follow one another are one. -/
theorem addrsFrom_append (la : Dword) (k n : Nat) :
    addrsFrom la k ++ addrsFrom (la + BitVec.ofNat 32 k) n = addrsFrom la (k + n) := by
  simp only [addrsFrom, List.range_add, List.map_append, List.map_map]
  congr 1
  apply List.map_congr_left
  intro i _
  simp only [Function.comp, BitVec.ofNat_add, BitVec.add_assoc]

@[simp] theorem addrsFrom_length (la : Dword) (n : Nat) : (addrsFrom la n).length = n := by simp [addrsFrom]

/-- With paging off a linear address is the physical one. -/
theorem translate_run (la : Dword) (w u : Bool) (t : Tx) (h : t.cur.pg = false) : translate la w u t = .ok la t := by
  simp [translate, bind_run, h]

/-- With paging off the bytes of an access lie one after the other. -/
theorem linPlan_run (la : Dword) (n : Nat) (w u : Bool) (t : Tx) (h : t.cur.pg = false) :
    linPlan la n w u t = .ok (addrsFrom la n) t := by
  unfold linPlan
  rw [bind_run_ok (translate_run la w u t h)]
  split
  · rfl
  · rename_i hn
    rw [bind_run_ok (translate_run _ w u t h), addrsFrom_append]
    rw [show 4096 - (la.extractLsb' 0 12).toNat + (n - (4096 - (la.extractLsb' 0 12).toNat)) = n by omega]
    rfl

/-- A linear read of RAM. -/
theorem linRead_run (la : Dword) (n : Nat) (u : Bool) (t : Tx) (h : t.cur.pg = false)
    (hr : ∀ pa ∈ addrsFrom la n, t.cur.kindAt pa.toNat = .ram) :
    linRead la n u t = .ok ((addrsFrom la n).map t.cur.byteAt) t := by
  unfold linRead
  rw [bind_run_ok (linPlan_run la n false u t h), readPhys_run _ t hr]

/-! ## Segmented accesses -/

/-- What `reachable` says. -/
theorem reachable_iff (s : State) (r : Sreg) (off : Dword) (n : Nat) (w : Bool) :
    s.reachable r off n w = true ↔
      s.pg = false ∧ (s.seg r).valid = true ∧ ((s.seg r).allows w || (r == .cs && !s.pe)) = true ∧
        (s.seg r).inLimit off n = true ∧ ∀ pa ∈ s.addrs r off n, s.kindAt pa.toNat = .ram := by
  simp only [State.reachable, Bool.and_eq_true, Bool.not_eq_true', List.all_eq_true, beq_iff_eq]
  tauto

/-- The plan of an access that can be made. -/
theorem memPlan_run (r : Sreg) (off : Dword) (n : Nat) (w : Bool) (t : Tx) (h : t.cur.reachable r off n w = true) :
    memPlan r off n w t = .ok (t.cur.addrs r off n) t := by
  obtain ⟨hp, hv, ha, hl, -⟩ := (reachable_iff ..).mp h
  have hc : segCheck r off n w t = .ok () t := by
    unfold segCheck
    simp only [bind_run, look_run, hv, ha, hl, need_true]
  unfold memPlan
  rw [bind_run_ok hc]
  simp only [bind_run, look_run, isUser]
  rw [linPlan_run _ _ _ _ t hp]
  rfl

/-- A read of an operand that can be reached. -/
theorem memRead_run (r : Sreg) (off : Dword) (n w : Nat) (t : Tx) (h : t.cur.reachable r off n false = true) :
    memRead r off n w t = .ok (t.cur.load r off n w) t := by
  have hr := ((reachable_iff ..).mp h).2.2.2.2
  unfold memRead memBytes
  rw [bind_run, bind_run_ok (memPlan_run r off n false t h), readPhys_run _ t hr]
  rfl

/-- A write of an operand that can be reached. -/
theorem memWrite_run (r : Sreg) (off : Dword) (n : Nat) {w : Nat} (v : BitVec w) (t : Tx)
    (h : t.cur.reachable r off n true = true) :
    memWrite r off n v t = .ok () { t with cur := t.cur.store r off n v } := by
  have hr := ((reachable_iff ..).mp h).2.2.2.2
  unfold memWrite
  rw [bind_run_ok (memPlan_run r off n true t h), writePhys_run _ _ t hr]
  rfl

/-- A part of an operand inside the limit is inside it, and does not wrap. -/
theorem inLimit_part {g : SegReg} {off : Dword} {k n l : Nat} (h : g.inLimit off l = true) (hk : k + n ≤ l)
    (hn : 0 < n) : off.toNat + k < 2 ^ 32 ∧ g.inLimit (off + BitVec.ofNat 32 k) n = true := by
  have hb := g.limit.isLt
  have hw : off.toNat + k < 2 ^ 32 := by
    unfold SegReg.inLimit at h
    split at h <;> simp only [decide_eq_true_eq] at h
    · split at h <;> omega
    · omega
  have he : (off + BitVec.ofNat 32 k).toNat = off.toNat + k := by
    simp only [BitVec.toNat_add, BitVec.toNat_ofNat]
    omega
  refine ⟨hw, ?_⟩
  unfold SegReg.inLimit at h ⊢
  rw [he]
  split
  · rename_i hc
    rw [if_pos hc, decide_eq_true_eq] at h
    rw [decide_eq_true_eq]
    omega
  · rename_i hc
    rw [if_neg hc, decide_eq_true_eq] at h
    rw [decide_eq_true_eq]
    omega

/-- A part of an operand that can be reached can be reached. -/
theorem reachable_part {s : State} {r : Sreg} {off : Dword} {k n l : Nat} {w : Bool}
    (h : s.reachable r off l w = true) (hk : k + n ≤ l) (hn : 0 < n) :
    off.toNat + k < 2 ^ 32 ∧ s.reachable r (off + BitVec.ofNat 32 k) n w = true := by
  obtain ⟨hp, hv, ha, hl, hr⟩ := (reachable_iff ..).mp h
  obtain ⟨hw, hi⟩ := inLimit_part hl hk hn
  refine ⟨hw, (reachable_iff ..).mpr ⟨hp, hv, ha, hi, fun pa hpa => hr pa ?_⟩⟩
  unfold State.addrs at hpa ⊢
  rw [show l = k + (n + (l - k - n)) by omega, ← addrsFrom_append, ← addrsFrom_append, BitVec.add_assoc]
  simp [hpa]

/-! ## Operands -/

/-- The plan of a part of a memory operand that can be reached. -/
theorem partPlan_run (m : Mem) (k n : Nat) {l : Nat} (w : Bool) (t : Tx)
    (h : t.cur.reachable (t.cur.effSeg m) (t.cur.effOff m) l w = true) (hk : k + n ≤ l) (hn : 0 < n) :
    partPlan m k n w t = .ok (t.cur.addrs (t.cur.effSeg m) (t.cur.effOff m + BitVec.ofNat 32 k) n) t := by
  obtain ⟨hw, hr⟩ := reachable_part h hk hn
  unfold partPlan
  simp only [bind_run, look_run, hw, decide_true, need_true, memPlan_run _ _ _ _ t hr]

/-- A part of a memory operand that can be reached is read. -/
theorem readPart_run (m : Mem) (k n w : Nat) {l : Nat} (t : Tx)
    (h : t.cur.reachable (t.cur.effSeg m) (t.cur.effOff m) l false = true) (hk : k + n ≤ l) (hn : 0 < n) :
    readPart m k n w t = .ok (t.cur.load (t.cur.effSeg m) (t.cur.effOff m + BitVec.ofNat 32 k) n w) t := by
  have hr := ((reachable_iff ..).mp (reachable_part h hk hn).2).2.2.2.2
  unfold readPart
  simp only [bind_run, partPlan_run m k n false t h hk hn, readPhys_run _ t hr]
  rfl

/-- A memory operand that can be reached is read from its first byte on. -/
theorem readMem_run (m : Mem) (n w : Nat) {l : Nat} (t : Tx)
    (h : t.cur.reachable (t.cur.effSeg m) (t.cur.effOff m) l false = true) (hk : n ≤ l) (hn : 0 < n) :
    readMem m n w t = .ok (t.cur.load (t.cur.effSeg m) (t.cur.effOff m) n w) t := by
  have hr := (reachable_part (k := 0) h (by omega) hn).2
  rw [show t.cur.effOff m + BitVec.ofNat 32 0 = t.cur.effOff m by simp] at hr
  unfold readMem
  simp only [bind_run, look_run, memRead_run _ _ _ _ t hr]

/-- A byte operand is read. -/
theorem readB_run (e : RM Reg8) (t : Tx) (h : t.cur.ok8 e false = true) : readB e t = .ok (t.cur.get8 e) t := by
  cases e with
  | reg r => simp [readB, placeB, bind_run, Place.read, State.get8]
  | mem m =>
    have hr := ((reachable_iff ..).mp h).2.2.2.2
    simp only [readB, placeB, memPlace, bind_run, look_run, memPlan_run _ _ _ _ t h, pure_run, Place.read,
      readPhys_run _ t hr, State.get8, State.load, State.valueAt]

/-- An operand of `w` bits is read. -/
theorem readV_run (w : Nat) (e : RM Gpr) (t : Tx) (h : t.cur.okV w e false = true) :
    readV w e t = .ok (t.cur.getV w e) t := by
  cases e with
  | reg r => simp [readV, placeV, bind_run, Place.read, State.getV]
  | mem m =>
    have hr := ((reachable_iff ..).mp h).2.2.2.2
    simp only [readV, placeV, memPlace, bind_run, look_run, memPlan_run _ _ _ _ t h, pure_run, Place.read,
      readPhys_run _ t hr, State.getV, State.load, State.valueAt]

/-- The place of a byte operand. -/
def State.place8 (s : State) : RM Reg8 → Place
  | .reg r => .byte r
  | .mem m => .mem (s.addrs (s.effSeg m) (s.effOff m) 1)

/-- The place of an operand of `w` bits. -/
def State.placeW (s : State) (w : Nat) : RM Gpr → Place
  | .reg r => .gpr r
  | .mem m => .mem (s.addrs (s.effSeg m) (s.effOff m) (w / 8))

/-- The place of a byte operand is found. -/
theorem placeB_run (e : RM Reg8) (w : Bool) (t : Tx) (h : t.cur.ok8 e w = true) :
    placeB e w t = .ok (t.cur.place8 e) t := by
  cases e with
  | reg r => rfl
  | mem m => simp only [placeB, memPlace, bind_run, look_run, memPlan_run _ _ _ _ t h, pure_run, State.place8]

/-- The place of an operand of `w` bits is found. -/
theorem placeV_run (w : Nat) (e : RM Gpr) (wr : Bool) (t : Tx) (h : t.cur.okV w e wr = true) :
    placeV w e wr t = .ok (t.cur.placeW w e) t := by
  cases e with
  | reg r => rfl
  | mem m => simp only [placeV, memPlace, bind_run, look_run, memPlan_run _ _ _ _ t h, pure_run, State.placeW]

/-- The place of a byte operand is read. -/
theorem place8_read (e : RM Reg8) (wr : Bool) (t : Tx) (h : t.cur.ok8 e wr = true) :
    (t.cur.place8 e).read 8 t = .ok (t.cur.get8 e) t := by
  cases e with
  | reg r => simp [State.place8, Place.read, State.get8]
  | mem m =>
    have hr := ((reachable_iff ..).mp h).2.2.2.2
    simp only [State.place8, Place.read, bind_run, readPhys_run _ t hr, pure_run, State.get8, State.load,
      State.valueAt]

/-- The place of an operand of `w` bits is read. -/
theorem placeW_read (w : Nat) (e : RM Gpr) (wr : Bool) (t : Tx) (h : t.cur.okV w e wr = true) :
    (t.cur.placeW w e).read w t = .ok (t.cur.getV w e) t := by
  cases e with
  | reg r => simp [State.placeW, Place.read, State.getV]
  | mem m =>
    have hr := ((reachable_iff ..).mp h).2.2.2.2
    simp only [State.placeW, Place.read, bind_run, readPhys_run _ t hr, pure_run, State.getV, State.load,
      State.valueAt]

/-- Drawing free values leaves what stands at an address. -/
@[simp] theorem drawn_kindAt (s : State) (k pa : Nat) : (s.drawn k).kindAt pa = s.kindAt pa := rfl

/-- The place of a byte operand of the state `s` is written, in a state that has the same address map. -/
theorem place8_write (s : State) (e : RM Reg8) (v : Byte) (t : Tx) (h : s.ok8 e true = true)
    (hk : ∀ pa : Dword, t.cur.kindAt pa.toNat = s.kindAt pa.toNat) :
    (s.place8 e).write v t = .ok ()
      { t with
        cur := match e with
          | .reg r => t.cur.setReg8 r v
          | .mem m => t.cur.storeBytes (s.addrs (s.effSeg m) (s.effOff m) 1) (leBytes 1 v) } := by
  cases e with
  | reg r => simp [State.place8, Place.write]
  | mem m =>
    have hr := ((reachable_iff ..).mp h).2.2.2.2
    simp only [State.place8, Place.write]
    rw [writePhys_run _ _ t fun pa hpa => (hk pa).trans (hr pa hpa)]
    simp [State.addrs]

/-- The place of an operand of `w` bits of the state `s` is written, in a state that has the same address map. -/
theorem placeW_write (s : State) (w : Nat) (e : RM Gpr) (v : BitVec w) (t : Tx) (h : s.okV w e true = true)
    (hk : ∀ pa : Dword, t.cur.kindAt pa.toNat = s.kindAt pa.toNat) :
    (s.placeW w e).write v t = .ok ()
      { t with
        cur := match e with
          | .reg r => t.cur.setGprLow r v
          | .mem m => t.cur.storeBytes (s.addrs (s.effSeg m) (s.effOff m) (w / 8)) (leBytes (w / 8) v) } := by
  cases e with
  | reg r => simp [State.placeW, Place.write]
  | mem m =>
    have hr := ((reachable_iff ..).mp h).2.2.2.2
    simp only [State.placeW, Place.write]
    rw [writePhys_run _ _ t fun pa hpa => (hk pa).trans (hr pa hpa)]
    simp [State.addrs]

/-! ## The stack -/

/-- A push that can be made. -/
theorem push_run (n : Nat) {w : Nat} (v : BitVec w) (t : Tx) (h : t.cur.canPush n = true) :
    push n v t = .ok () { t with cur := t.cur.pushed n v } := by
  unfold push
  simp only [bind_run, look_run]
  rw [memWrite_run .ss _ n v t h]
  rfl

/-- A pop that can be made. -/
theorem pop_run (n w : Nat) (t : Tx) (h : t.cur.canPop n = true) :
    pop n w t = .ok (t.cur.top n w) { t with cur := t.cur.popped n } := by
  unfold pop
  simp only [bind_run, look_run]
  rw [memRead_run .ss _ n w t h]
  rfl

/-! ## What orders fetch and translation (20_memory.md R242) -/

/-- With no older copy of it in the prefetch queue, a byte that may be fetched comes from memory as it stands
(20_memory.md R251). -/
theorem fetchByte_run {k : Nat} {t : Tx} (hm : t.cur.mayFetch k = true)
    (hs : t.cur.staleCopies (t.cur.eip + BitVec.ofNat 32 k) = []) :
    fetchByte k t = readCode (t.cur.eip + BitVec.ofNat 32 k) t := by
  unfold fetchByte
  rw [bind_run_ok (look_run _ t), bind_run_ok (look_run _ t), bind_run_ok (by rw [hm, need_true]),
    bind_run_ok (look_run _ t), hs]

/-- Where no TLB entry holds a page, its translation is a walk of the tables as they stand (20_memory.md R230, R262). -/
theorem translate_walk {la : Dword} {write user : Bool} {t : Tx} (hp : t.cur.pg = true)
    (hd : t.cur.tlbDup.contains (tlbTag la) = false) (hh : t.cur.tlbHits la = []) :
    translate la write user t = pageWalk la write user t := by
  have hl : tlbLookup la t = .ok none t := by
    unfold tlbLookup
    rw [bind_run_ok (look_run _ t), hd, if_neg (by simp), bind_run_ok (look_run _ t), hh]
    rfl
  unfold translate
  rw [bind_run_ok (look_run _ t), hp, if_pos rfl, bind_run_ok hl]

/-! ## Running an instruction -/

/-- An instruction whose operation succeeds completes. -/
theorem instr_run {lockable : Bool} {body : M Unit} {s : State} {t : Tx} (hl : s.ctx.lock = true → lockable = true)
    (h : body (Tx.start s) = .ok () t) : instr lockable body s = .next (complete s t.cur) := by
  have hn : (!s.ctx.lock || lockable) = true := by cases hc : s.ctx.lock <;> simp_all
  unfold instr
  rw [hn]
  have : (do need true raiseUD; body : M Unit) (Tx.start s) = .ok () t := by rw [bind_run, need_true]; exact h
  unfold Tx.start at this
  rw [this]

/-- An instruction that goes on to the next one, and whose operation succeeds. -/
theorem seqInstr_run {lockable : Bool} {body : M Unit} {s : State} {t : Tx}
    (hl : s.ctx.lock = true → lockable = true) (h : body (Tx.start s) = .ok () t) :
    seqInstr lockable body s = .next (s.finish t.cur) := by
  unfold seqInstr
  rw [instr_run (t := { t with cur := t.cur.advance }) hl (by rw [bind_run_ok h]; rfl)]
  rfl

/-- An instruction whose operation raises an exception takes it. -/
theorem instr_raise {lockable : Bool} {body : M Unit} {s : State} {t : Tx} {x : Exc}
    (hl : s.ctx.lock = true → lockable = true) (h : body (Tx.start s) = .error (.raise x) t) :
    instr lockable body s = takeException x t.base := by
  have hn : (!s.ctx.lock || lockable) = true := by cases hc : s.ctx.lock <;> simp_all
  unfold instr
  rw [hn]
  have : (do need true raiseUD; body : M Unit) (Tx.start s) = .error (.raise x) t := by
    rw [bind_run, need_true]
    exact h
  unfold Tx.start at this
  rw [this]

/-- The same for an instruction that would go on to the next one. -/
theorem seqInstr_raise {lockable : Bool} {body : M Unit} {s : State} {t : Tx} {x : Exc}
    (hl : s.ctx.lock = true → lockable = true) (h : body (Tx.start s) = .error (.raise x) t) :
    seqInstr lockable body s = takeException x t.base := by
  unfold seqInstr
  exact instr_raise hl (by rw [bind_run_error h])

/-- LOCK before an instruction that does not take it (30_encoding.md R308). -/
theorem instr_lock {body : M Unit} {s : State} (h : s.ctx.lock = true) :
    instr false body s = takeException { vec := 6, err := none } s := by
  unfold instr
  rw [h]
  rfl

end Sys2Proof.Machine
end

