-- ==== Sys2Proof/Laws/State.lean ====
section
/-! SUPPORT. What each update of the state leaves alone: one lemma per field per update, so that no proof unfolds a record
update; and what the updated field reads as. -/

namespace Sys2Proof.Machine

/-! ## What is written -/

/-- A general register reads as the value last written to it. -/
@[simp] theorem Gprs.get_set (g : Gprs) (r q : Gpr) (v : Dword) : (g.set r v).get q = if q = r then v else g.get q := by
  cases r <;> cases q <;> rfl
/-- A segment register reads as the value last written to it. -/
@[simp] theorem Segs.get_set (g : Segs) (r q : Sreg) (v : SegReg) :
    (g.set r v).get q = if q = r then v else g.get q := by
  cases r <;> cases q <;> rfl
/-- Reading a general register after a write. -/
@[simp] theorem setGpr_gpr (s : State) (r q : Gpr) (v : Dword) :
    (s.setGpr r v).gpr q = if q = r then v else s.gpr q := Gprs.get_set s.gprs r q v
/-- Reading a segment register after a write. -/
@[simp] theorem setSeg_seg (s : State) (r q : Sreg) (v : SegReg) :
    (s.setSeg r v).seg q = if q = r then v else s.seg q := Segs.get_set s.segs r q v
@[simp] theorem putFlag_eflags (s : State) (i : Nat) (b : Bool) :
    (s.putFlag i b).eflags = putBit s.eflags i b := rfl
@[simp] theorem setFlags_eflags (s : State) (f : Flags) : (s.setFlags f).eflags = f.into s.eflags := rfl
@[simp] theorem goTo_eip (s : State) (off : Dword) : (s.goTo off).eip = off := rfl
@[simp] theorem goTo_eipOver (s : State) (off : Dword) : (s.goTo off).eipOver = false := rfl
@[simp] theorem advance_eipOver (s : State) : s.advance.eipOver = s.runsOver := rfl
@[simp] theorem goTo_prefetch (s : State) (off : Dword) : (s.goTo off).prefetch = [] := rfl
@[simp] theorem event_ioLog (s : State) (e : IoEvent) : (s.event e).ioLog = s.ioLog ++ [e] := rfl
@[simp] theorem setTlbEntry_length (s : State) (la : Dword) (way : Nat) (e : TlbEntry) :
    (s.setTlbEntry la way e).tlb.length = s.tlb.length := by simp [State.setTlbEntry]
/-- The completion of an instruction leaves the prefetch queue as the instruction left it (20_memory.md R250). -/
@[simp] theorem complete_prefetch (s t : State) : (complete s t).prefetch = t.prefetch := by
  unfold complete
  split <;> split <;> rfl
/-- No older copy of any byte outlives a transfer (20_memory.md R242, R251). -/
@[simp] theorem goTo_staleCopies (s : State) (dst off : Dword) : (s.goTo dst).staleCopies off = [] := rfl
/-- Nor the start of a new task (20_memory.md R242, R251). -/
@[simp] theorem loadTask_staleCopies (s : State) (k : SwitchKind) (t : List Byte) (off : Dword) :
    (s.loadTask k t).staleCopies off = [] := rfl
@[simp] theorem flushTlb_tlbDup (s : State) : s.flushTlb.tlbDup = [] := rfl
/-- No entry is valid after a flush, so none is found (20_memory.md R262). -/
@[simp] theorem flushTlb_tlbHits (s : State) (la : Dword) : s.flushTlb.tlbHits la = [] := by
  simp only [State.tlbHits, List.filter_eq_nil_iff]
  intro way _
  have hv : (s.flushTlb.tlbEntry la way).v = false := by
    simp only [State.tlbEntry, State.flushTlb, List.getElem?_map]
    cases s.tlb[Config.tlbWays * tlbSet la + way]? <;> rfl
  simp [hv]
@[simp] theorem flushTlb_length (s : State) : s.flushTlb.tlb.length = s.tlb.length := by simp [State.flushTlb]
@[simp] theorem drawn_freeCtr (s : State) (k : Nat) : (s.drawn k).freeCtr = s.freeCtr + k := rfl
@[simp] theorem drawn_drawn (s : State) (j k : Nat) : (s.drawn j).drawn k = s.drawn (j + k) := by
  simp [State.drawn, Nat.add_assoc]
@[simp] theorem drawn_zero (s : State) : s.drawn 0 = s := rfl

/-! ## Fields that a write of a general register leaves alone -/

@[simp] theorem setGpr_eip (s : State) (r : Gpr) (v : Dword) : (s.setGpr r v).eip = s.eip := rfl
@[simp] theorem setGpr_eipOver (s : State) (r : Gpr) (v : Dword) : (s.setGpr r v).eipOver = s.eipOver := rfl
@[simp] theorem setGpr_eflags (s : State) (r : Gpr) (v : Dword) : (s.setGpr r v).eflags = s.eflags := rfl
@[simp] theorem setGpr_cpl (s : State) (r : Gpr) (v : Dword) : (s.setGpr r v).cpl = s.cpl := rfl
@[simp] theorem setGpr_segs (s : State) (r : Gpr) (v : Dword) : (s.setGpr r v).segs = s.segs := rfl
@[simp] theorem setGpr_gdtr (s : State) (r : Gpr) (v : Dword) : (s.setGpr r v).gdtr = s.gdtr := rfl
@[simp] theorem setGpr_idtr (s : State) (r : Gpr) (v : Dword) : (s.setGpr r v).idtr = s.idtr := rfl
@[simp] theorem setGpr_ldtr (s : State) (r : Gpr) (v : Dword) : (s.setGpr r v).ldtr = s.ldtr := rfl
@[simp] theorem setGpr_tr (s : State) (r : Gpr) (v : Dword) : (s.setGpr r v).tr = s.tr := rfl
@[simp] theorem setGpr_cr0 (s : State) (r : Gpr) (v : Dword) : (s.setGpr r v).cr0 = s.cr0 := rfl
@[simp] theorem setGpr_cr2 (s : State) (r : Gpr) (v : Dword) : (s.setGpr r v).cr2 = s.cr2 := rfl
@[simp] theorem setGpr_cr3 (s : State) (r : Gpr) (v : Dword) : (s.setGpr r v).cr3 = s.cr3 := rfl
@[simp] theorem setGpr_dr0 (s : State) (r : Gpr) (v : Dword) : (s.setGpr r v).dr0 = s.dr0 := rfl
@[simp] theorem setGpr_dr1 (s : State) (r : Gpr) (v : Dword) : (s.setGpr r v).dr1 = s.dr1 := rfl
@[simp] theorem setGpr_dr2 (s : State) (r : Gpr) (v : Dword) : (s.setGpr r v).dr2 = s.dr2 := rfl
@[simp] theorem setGpr_dr3 (s : State) (r : Gpr) (v : Dword) : (s.setGpr r v).dr3 = s.dr3 := rfl
@[simp] theorem setGpr_dr6 (s : State) (r : Gpr) (v : Dword) : (s.setGpr r v).dr6 = s.dr6 := rfl
@[simp] theorem setGpr_dr7 (s : State) (r : Gpr) (v : Dword) : (s.setGpr r v).dr7 = s.dr7 := rfl
@[simp] theorem setGpr_tr6 (s : State) (r : Gpr) (v : Dword) : (s.setGpr r v).tr6 = s.tr6 := rfl
@[simp] theorem setGpr_tr7 (s : State) (r : Gpr) (v : Dword) : (s.setGpr r v).tr7 = s.tr7 := rfl
@[simp] theorem setGpr_tlb (s : State) (r : Gpr) (v : Dword) : (s.setGpr r v).tlb = s.tlb := rfl
@[simp] theorem setGpr_tlbDup (s : State) (r : Gpr) (v : Dword) : (s.setGpr r v).tlbDup = s.tlbDup := rfl
@[simp] theorem setGpr_prefetch (s : State) (r : Gpr) (v : Dword) : (s.setGpr r v).prefetch = s.prefetch := rfl
@[simp] theorem setGpr_nmiLatch (s : State) (r : Gpr) (v : Dword) : (s.setGpr r v).nmiLatch = s.nmiLatch := rfl
@[simp] theorem setGpr_inhibitSS (s : State) (r : Gpr) (v : Dword) : (s.setGpr r v).inhibitSS = s.inhibitSS := rfl
@[simp] theorem setGpr_inhibitSTI (s : State) (r : Gpr) (v : Dword) : (s.setGpr r v).inhibitSTI = s.inhibitSTI := rfl
@[simp] theorem setGpr_trapPending (s : State) (r : Gpr) (v : Dword) :
    (s.setGpr r v).trapPending = s.trapPending := rfl
@[simp] theorem setGpr_run (s : State) (r : Gpr) (v : Dword) : (s.setGpr r v).run = s.run := rfl
@[simp] theorem setGpr_intr (s : State) (r : Gpr) (v : Dword) : (s.setGpr r v).intr = s.intr := rfl
@[simp] theorem setGpr_nmi (s : State) (r : Gpr) (v : Dword) : (s.setGpr r v).nmi = s.nmi := rfl
@[simp] theorem setGpr_resetPin (s : State) (r : Gpr) (v : Dword) : (s.setGpr r v).resetPin = s.resetPin := rfl
@[simp] theorem setGpr_mem (s : State) (r : Gpr) (v : Dword) : (s.setGpr r v).mem = s.mem := rfl
@[simp] theorem setGpr_physMap (s : State) (r : Gpr) (v : Dword) : (s.setGpr r v).physMap = s.physMap := rfl
@[simp] theorem setGpr_ioLog (s : State) (r : Gpr) (v : Dword) : (s.setGpr r v).ioLog = s.ioLog := rfl
@[simp] theorem setGpr_freeCtr (s : State) (r : Gpr) (v : Dword) : (s.setGpr r v).freeCtr = s.freeCtr := rfl
@[simp] theorem setGpr_ctx (s : State) (r : Gpr) (v : Dword) : (s.setGpr r v).ctx = s.ctx := rfl

/-! ## Fields that a partial write of a general register leaves alone -/

@[simp] theorem setGprLow_eip (s : State) {w : Nat} (r : Gpr) (v : BitVec w) : (s.setGprLow r v).eip = s.eip := rfl
@[simp] theorem setGprLow_eipOver (s : State) {w : Nat} (r : Gpr) (v : BitVec w) :
    (s.setGprLow r v).eipOver = s.eipOver := rfl
@[simp] theorem setGprLow_eflags (s : State) {w : Nat} (r : Gpr) (v : BitVec w) :
    (s.setGprLow r v).eflags = s.eflags := rfl
@[simp] theorem setGprLow_cpl (s : State) {w : Nat} (r : Gpr) (v : BitVec w) : (s.setGprLow r v).cpl = s.cpl := rfl
@[simp] theorem setGprLow_segs (s : State) {w : Nat} (r : Gpr) (v : BitVec w) : (s.setGprLow r v).segs = s.segs := rfl
@[simp] theorem setGprLow_gdtr (s : State) {w : Nat} (r : Gpr) (v : BitVec w) : (s.setGprLow r v).gdtr = s.gdtr := rfl
@[simp] theorem setGprLow_idtr (s : State) {w : Nat} (r : Gpr) (v : BitVec w) : (s.setGprLow r v).idtr = s.idtr := rfl
@[simp] theorem setGprLow_ldtr (s : State) {w : Nat} (r : Gpr) (v : BitVec w) : (s.setGprLow r v).ldtr = s.ldtr := rfl
@[simp] theorem setGprLow_tr (s : State) {w : Nat} (r : Gpr) (v : BitVec w) : (s.setGprLow r v).tr = s.tr := rfl
@[simp] theorem setGprLow_cr0 (s : State) {w : Nat} (r : Gpr) (v : BitVec w) : (s.setGprLow r v).cr0 = s.cr0 := rfl
@[simp] theorem setGprLow_cr2 (s : State) {w : Nat} (r : Gpr) (v : BitVec w) : (s.setGprLow r v).cr2 = s.cr2 := rfl
@[simp] theorem setGprLow_cr3 (s : State) {w : Nat} (r : Gpr) (v : BitVec w) : (s.setGprLow r v).cr3 = s.cr3 := rfl
@[simp] theorem setGprLow_dr0 (s : State) {w : Nat} (r : Gpr) (v : BitVec w) : (s.setGprLow r v).dr0 = s.dr0 := rfl
@[simp] theorem setGprLow_dr1 (s : State) {w : Nat} (r : Gpr) (v : BitVec w) : (s.setGprLow r v).dr1 = s.dr1 := rfl
@[simp] theorem setGprLow_dr2 (s : State) {w : Nat} (r : Gpr) (v : BitVec w) : (s.setGprLow r v).dr2 = s.dr2 := rfl
@[simp] theorem setGprLow_dr3 (s : State) {w : Nat} (r : Gpr) (v : BitVec w) : (s.setGprLow r v).dr3 = s.dr3 := rfl
@[simp] theorem setGprLow_dr6 (s : State) {w : Nat} (r : Gpr) (v : BitVec w) : (s.setGprLow r v).dr6 = s.dr6 := rfl
@[simp] theorem setGprLow_dr7 (s : State) {w : Nat} (r : Gpr) (v : BitVec w) : (s.setGprLow r v).dr7 = s.dr7 := rfl
@[simp] theorem setGprLow_tr6 (s : State) {w : Nat} (r : Gpr) (v : BitVec w) : (s.setGprLow r v).tr6 = s.tr6 := rfl
@[simp] theorem setGprLow_tr7 (s : State) {w : Nat} (r : Gpr) (v : BitVec w) : (s.setGprLow r v).tr7 = s.tr7 := rfl
@[simp] theorem setGprLow_tlb (s : State) {w : Nat} (r : Gpr) (v : BitVec w) : (s.setGprLow r v).tlb = s.tlb := rfl
@[simp] theorem setGprLow_tlbDup (s : State) {w : Nat} (r : Gpr) (v : BitVec w) :
    (s.setGprLow r v).tlbDup = s.tlbDup := rfl
@[simp] theorem setGprLow_prefetch (s : State) {w : Nat} (r : Gpr) (v : BitVec w) :
    (s.setGprLow r v).prefetch = s.prefetch := rfl
@[simp] theorem setGprLow_nmiLatch (s : State) {w : Nat} (r : Gpr) (v : BitVec w) :
    (s.setGprLow r v).nmiLatch = s.nmiLatch := rfl
@[simp] theorem setGprLow_inhibitSS (s : State) {w : Nat} (r : Gpr) (v : BitVec w) :
    (s.setGprLow r v).inhibitSS = s.inhibitSS := rfl
@[simp] theorem setGprLow_inhibitSTI (s : State) {w : Nat} (r : Gpr) (v : BitVec w) :
    (s.setGprLow r v).inhibitSTI = s.inhibitSTI := rfl
@[simp] theorem setGprLow_trapPending (s : State) {w : Nat} (r : Gpr) (v : BitVec w) :
    (s.setGprLow r v).trapPending = s.trapPending := rfl
@[simp] theorem setGprLow_run (s : State) {w : Nat} (r : Gpr) (v : BitVec w) : (s.setGprLow r v).run = s.run := rfl
@[simp] theorem setGprLow_intr (s : State) {w : Nat} (r : Gpr) (v : BitVec w) : (s.setGprLow r v).intr = s.intr := rfl
@[simp] theorem setGprLow_nmi (s : State) {w : Nat} (r : Gpr) (v : BitVec w) : (s.setGprLow r v).nmi = s.nmi := rfl
@[simp] theorem setGprLow_resetPin (s : State) {w : Nat} (r : Gpr) (v : BitVec w) :
    (s.setGprLow r v).resetPin = s.resetPin := rfl
@[simp] theorem setGprLow_mem (s : State) {w : Nat} (r : Gpr) (v : BitVec w) : (s.setGprLow r v).mem = s.mem := rfl
@[simp] theorem setGprLow_physMap (s : State) {w : Nat} (r : Gpr) (v : BitVec w) :
    (s.setGprLow r v).physMap = s.physMap := rfl
@[simp] theorem setGprLow_ioLog (s : State) {w : Nat} (r : Gpr) (v : BitVec w) :
    (s.setGprLow r v).ioLog = s.ioLog := rfl
@[simp] theorem setGprLow_freeCtr (s : State) {w : Nat} (r : Gpr) (v : BitVec w) :
    (s.setGprLow r v).freeCtr = s.freeCtr := rfl
@[simp] theorem setGprLow_ctx (s : State) {w : Nat} (r : Gpr) (v : BitVec w) : (s.setGprLow r v).ctx = s.ctx := rfl

/-! ## Fields that a write of a byte register leaves alone -/

@[simp] theorem setReg8_eip (s : State) (r : Reg8) (v : Byte) : (s.setReg8 r v).eip = s.eip := rfl
@[simp] theorem setReg8_eipOver (s : State) (r : Reg8) (v : Byte) : (s.setReg8 r v).eipOver = s.eipOver := rfl
@[simp] theorem setReg8_eflags (s : State) (r : Reg8) (v : Byte) : (s.setReg8 r v).eflags = s.eflags := rfl
@[simp] theorem setReg8_cpl (s : State) (r : Reg8) (v : Byte) : (s.setReg8 r v).cpl = s.cpl := rfl
@[simp] theorem setReg8_segs (s : State) (r : Reg8) (v : Byte) : (s.setReg8 r v).segs = s.segs := rfl
@[simp] theorem setReg8_gdtr (s : State) (r : Reg8) (v : Byte) : (s.setReg8 r v).gdtr = s.gdtr := rfl
@[simp] theorem setReg8_idtr (s : State) (r : Reg8) (v : Byte) : (s.setReg8 r v).idtr = s.idtr := rfl
@[simp] theorem setReg8_ldtr (s : State) (r : Reg8) (v : Byte) : (s.setReg8 r v).ldtr = s.ldtr := rfl
@[simp] theorem setReg8_tr (s : State) (r : Reg8) (v : Byte) : (s.setReg8 r v).tr = s.tr := rfl
@[simp] theorem setReg8_cr0 (s : State) (r : Reg8) (v : Byte) : (s.setReg8 r v).cr0 = s.cr0 := rfl
@[simp] theorem setReg8_cr2 (s : State) (r : Reg8) (v : Byte) : (s.setReg8 r v).cr2 = s.cr2 := rfl
@[simp] theorem setReg8_cr3 (s : State) (r : Reg8) (v : Byte) : (s.setReg8 r v).cr3 = s.cr3 := rfl
@[simp] theorem setReg8_dr0 (s : State) (r : Reg8) (v : Byte) : (s.setReg8 r v).dr0 = s.dr0 := rfl
@[simp] theorem setReg8_dr1 (s : State) (r : Reg8) (v : Byte) : (s.setReg8 r v).dr1 = s.dr1 := rfl
@[simp] theorem setReg8_dr2 (s : State) (r : Reg8) (v : Byte) : (s.setReg8 r v).dr2 = s.dr2 := rfl
@[simp] theorem setReg8_dr3 (s : State) (r : Reg8) (v : Byte) : (s.setReg8 r v).dr3 = s.dr3 := rfl
@[simp] theorem setReg8_dr6 (s : State) (r : Reg8) (v : Byte) : (s.setReg8 r v).dr6 = s.dr6 := rfl
@[simp] theorem setReg8_dr7 (s : State) (r : Reg8) (v : Byte) : (s.setReg8 r v).dr7 = s.dr7 := rfl
@[simp] theorem setReg8_tr6 (s : State) (r : Reg8) (v : Byte) : (s.setReg8 r v).tr6 = s.tr6 := rfl
@[simp] theorem setReg8_tr7 (s : State) (r : Reg8) (v : Byte) : (s.setReg8 r v).tr7 = s.tr7 := rfl
@[simp] theorem setReg8_tlb (s : State) (r : Reg8) (v : Byte) : (s.setReg8 r v).tlb = s.tlb := rfl
@[simp] theorem setReg8_tlbDup (s : State) (r : Reg8) (v : Byte) : (s.setReg8 r v).tlbDup = s.tlbDup := rfl
@[simp] theorem setReg8_prefetch (s : State) (r : Reg8) (v : Byte) : (s.setReg8 r v).prefetch = s.prefetch := rfl
@[simp] theorem setReg8_nmiLatch (s : State) (r : Reg8) (v : Byte) : (s.setReg8 r v).nmiLatch = s.nmiLatch := rfl
@[simp] theorem setReg8_inhibitSS (s : State) (r : Reg8) (v : Byte) : (s.setReg8 r v).inhibitSS = s.inhibitSS := rfl
@[simp] theorem setReg8_inhibitSTI (s : State) (r : Reg8) (v : Byte) :
    (s.setReg8 r v).inhibitSTI = s.inhibitSTI := rfl
@[simp] theorem setReg8_trapPending (s : State) (r : Reg8) (v : Byte) :
    (s.setReg8 r v).trapPending = s.trapPending := rfl
@[simp] theorem setReg8_run (s : State) (r : Reg8) (v : Byte) : (s.setReg8 r v).run = s.run := rfl
@[simp] theorem setReg8_intr (s : State) (r : Reg8) (v : Byte) : (s.setReg8 r v).intr = s.intr := rfl
@[simp] theorem setReg8_nmi (s : State) (r : Reg8) (v : Byte) : (s.setReg8 r v).nmi = s.nmi := rfl
@[simp] theorem setReg8_resetPin (s : State) (r : Reg8) (v : Byte) : (s.setReg8 r v).resetPin = s.resetPin := rfl
@[simp] theorem setReg8_mem (s : State) (r : Reg8) (v : Byte) : (s.setReg8 r v).mem = s.mem := rfl
@[simp] theorem setReg8_physMap (s : State) (r : Reg8) (v : Byte) : (s.setReg8 r v).physMap = s.physMap := rfl
@[simp] theorem setReg8_ioLog (s : State) (r : Reg8) (v : Byte) : (s.setReg8 r v).ioLog = s.ioLog := rfl
@[simp] theorem setReg8_freeCtr (s : State) (r : Reg8) (v : Byte) : (s.setReg8 r v).freeCtr = s.freeCtr := rfl
@[simp] theorem setReg8_ctx (s : State) (r : Reg8) (v : Byte) : (s.setReg8 r v).ctx = s.ctx := rfl

/-! ## Fields that a write of a segment register leaves alone -/

@[simp] theorem setSeg_gprs (s : State) (r : Sreg) (v : SegReg) : (s.setSeg r v).gprs = s.gprs := rfl
@[simp] theorem setSeg_eip (s : State) (r : Sreg) (v : SegReg) : (s.setSeg r v).eip = s.eip := rfl
@[simp] theorem setSeg_eipOver (s : State) (r : Sreg) (v : SegReg) : (s.setSeg r v).eipOver = s.eipOver := rfl
@[simp] theorem setSeg_eflags (s : State) (r : Sreg) (v : SegReg) : (s.setSeg r v).eflags = s.eflags := rfl
@[simp] theorem setSeg_cpl (s : State) (r : Sreg) (v : SegReg) : (s.setSeg r v).cpl = s.cpl := rfl
@[simp] theorem setSeg_gdtr (s : State) (r : Sreg) (v : SegReg) : (s.setSeg r v).gdtr = s.gdtr := rfl
@[simp] theorem setSeg_idtr (s : State) (r : Sreg) (v : SegReg) : (s.setSeg r v).idtr = s.idtr := rfl
@[simp] theorem setSeg_ldtr (s : State) (r : Sreg) (v : SegReg) : (s.setSeg r v).ldtr = s.ldtr := rfl
@[simp] theorem setSeg_tr (s : State) (r : Sreg) (v : SegReg) : (s.setSeg r v).tr = s.tr := rfl
@[simp] theorem setSeg_cr0 (s : State) (r : Sreg) (v : SegReg) : (s.setSeg r v).cr0 = s.cr0 := rfl
@[simp] theorem setSeg_cr2 (s : State) (r : Sreg) (v : SegReg) : (s.setSeg r v).cr2 = s.cr2 := rfl
@[simp] theorem setSeg_cr3 (s : State) (r : Sreg) (v : SegReg) : (s.setSeg r v).cr3 = s.cr3 := rfl
@[simp] theorem setSeg_dr0 (s : State) (r : Sreg) (v : SegReg) : (s.setSeg r v).dr0 = s.dr0 := rfl
@[simp] theorem setSeg_dr1 (s : State) (r : Sreg) (v : SegReg) : (s.setSeg r v).dr1 = s.dr1 := rfl
@[simp] theorem setSeg_dr2 (s : State) (r : Sreg) (v : SegReg) : (s.setSeg r v).dr2 = s.dr2 := rfl
@[simp] theorem setSeg_dr3 (s : State) (r : Sreg) (v : SegReg) : (s.setSeg r v).dr3 = s.dr3 := rfl
@[simp] theorem setSeg_dr6 (s : State) (r : Sreg) (v : SegReg) : (s.setSeg r v).dr6 = s.dr6 := rfl
@[simp] theorem setSeg_dr7 (s : State) (r : Sreg) (v : SegReg) : (s.setSeg r v).dr7 = s.dr7 := rfl
@[simp] theorem setSeg_tr6 (s : State) (r : Sreg) (v : SegReg) : (s.setSeg r v).tr6 = s.tr6 := rfl
@[simp] theorem setSeg_tr7 (s : State) (r : Sreg) (v : SegReg) : (s.setSeg r v).tr7 = s.tr7 := rfl
@[simp] theorem setSeg_tlb (s : State) (r : Sreg) (v : SegReg) : (s.setSeg r v).tlb = s.tlb := rfl
@[simp] theorem setSeg_tlbDup (s : State) (r : Sreg) (v : SegReg) : (s.setSeg r v).tlbDup = s.tlbDup := rfl
@[simp] theorem setSeg_prefetch (s : State) (r : Sreg) (v : SegReg) : (s.setSeg r v).prefetch = s.prefetch := rfl
@[simp] theorem setSeg_nmiLatch (s : State) (r : Sreg) (v : SegReg) : (s.setSeg r v).nmiLatch = s.nmiLatch := rfl
@[simp] theorem setSeg_inhibitSS (s : State) (r : Sreg) (v : SegReg) : (s.setSeg r v).inhibitSS = s.inhibitSS := rfl
@[simp] theorem setSeg_inhibitSTI (s : State) (r : Sreg) (v : SegReg) :
    (s.setSeg r v).inhibitSTI = s.inhibitSTI := rfl
@[simp] theorem setSeg_trapPending (s : State) (r : Sreg) (v : SegReg) :
    (s.setSeg r v).trapPending = s.trapPending := rfl
@[simp] theorem setSeg_run (s : State) (r : Sreg) (v : SegReg) : (s.setSeg r v).run = s.run := rfl
@[simp] theorem setSeg_intr (s : State) (r : Sreg) (v : SegReg) : (s.setSeg r v).intr = s.intr := rfl
@[simp] theorem setSeg_nmi (s : State) (r : Sreg) (v : SegReg) : (s.setSeg r v).nmi = s.nmi := rfl
@[simp] theorem setSeg_resetPin (s : State) (r : Sreg) (v : SegReg) : (s.setSeg r v).resetPin = s.resetPin := rfl
@[simp] theorem setSeg_mem (s : State) (r : Sreg) (v : SegReg) : (s.setSeg r v).mem = s.mem := rfl
@[simp] theorem setSeg_physMap (s : State) (r : Sreg) (v : SegReg) : (s.setSeg r v).physMap = s.physMap := rfl
@[simp] theorem setSeg_ioLog (s : State) (r : Sreg) (v : SegReg) : (s.setSeg r v).ioLog = s.ioLog := rfl
@[simp] theorem setSeg_freeCtr (s : State) (r : Sreg) (v : SegReg) : (s.setSeg r v).freeCtr = s.freeCtr := rfl
@[simp] theorem setSeg_ctx (s : State) (r : Sreg) (v : SegReg) : (s.setSeg r v).ctx = s.ctx := rfl

/-! ## Fields that a write of one flag leaves alone -/

@[simp] theorem putFlag_gprs (s : State) (i : Nat) (b : Bool) : (s.putFlag i b).gprs = s.gprs := rfl
@[simp] theorem putFlag_eip (s : State) (i : Nat) (b : Bool) : (s.putFlag i b).eip = s.eip := rfl
@[simp] theorem putFlag_eipOver (s : State) (i : Nat) (b : Bool) : (s.putFlag i b).eipOver = s.eipOver := rfl
@[simp] theorem putFlag_cpl (s : State) (i : Nat) (b : Bool) : (s.putFlag i b).cpl = s.cpl := rfl
@[simp] theorem putFlag_segs (s : State) (i : Nat) (b : Bool) : (s.putFlag i b).segs = s.segs := rfl
@[simp] theorem putFlag_gdtr (s : State) (i : Nat) (b : Bool) : (s.putFlag i b).gdtr = s.gdtr := rfl
@[simp] theorem putFlag_idtr (s : State) (i : Nat) (b : Bool) : (s.putFlag i b).idtr = s.idtr := rfl
@[simp] theorem putFlag_ldtr (s : State) (i : Nat) (b : Bool) : (s.putFlag i b).ldtr = s.ldtr := rfl
@[simp] theorem putFlag_tr (s : State) (i : Nat) (b : Bool) : (s.putFlag i b).tr = s.tr := rfl
@[simp] theorem putFlag_cr0 (s : State) (i : Nat) (b : Bool) : (s.putFlag i b).cr0 = s.cr0 := rfl
@[simp] theorem putFlag_cr2 (s : State) (i : Nat) (b : Bool) : (s.putFlag i b).cr2 = s.cr2 := rfl
@[simp] theorem putFlag_cr3 (s : State) (i : Nat) (b : Bool) : (s.putFlag i b).cr3 = s.cr3 := rfl
@[simp] theorem putFlag_dr0 (s : State) (i : Nat) (b : Bool) : (s.putFlag i b).dr0 = s.dr0 := rfl
@[simp] theorem putFlag_dr1 (s : State) (i : Nat) (b : Bool) : (s.putFlag i b).dr1 = s.dr1 := rfl
@[simp] theorem putFlag_dr2 (s : State) (i : Nat) (b : Bool) : (s.putFlag i b).dr2 = s.dr2 := rfl
@[simp] theorem putFlag_dr3 (s : State) (i : Nat) (b : Bool) : (s.putFlag i b).dr3 = s.dr3 := rfl
@[simp] theorem putFlag_dr6 (s : State) (i : Nat) (b : Bool) : (s.putFlag i b).dr6 = s.dr6 := rfl
@[simp] theorem putFlag_dr7 (s : State) (i : Nat) (b : Bool) : (s.putFlag i b).dr7 = s.dr7 := rfl
@[simp] theorem putFlag_tr6 (s : State) (i : Nat) (b : Bool) : (s.putFlag i b).tr6 = s.tr6 := rfl
@[simp] theorem putFlag_tr7 (s : State) (i : Nat) (b : Bool) : (s.putFlag i b).tr7 = s.tr7 := rfl
@[simp] theorem putFlag_tlb (s : State) (i : Nat) (b : Bool) : (s.putFlag i b).tlb = s.tlb := rfl
@[simp] theorem putFlag_tlbDup (s : State) (i : Nat) (b : Bool) : (s.putFlag i b).tlbDup = s.tlbDup := rfl
@[simp] theorem putFlag_prefetch (s : State) (i : Nat) (b : Bool) : (s.putFlag i b).prefetch = s.prefetch := rfl
@[simp] theorem putFlag_nmiLatch (s : State) (i : Nat) (b : Bool) : (s.putFlag i b).nmiLatch = s.nmiLatch := rfl
@[simp] theorem putFlag_inhibitSS (s : State) (i : Nat) (b : Bool) : (s.putFlag i b).inhibitSS = s.inhibitSS := rfl
@[simp] theorem putFlag_inhibitSTI (s : State) (i : Nat) (b : Bool) : (s.putFlag i b).inhibitSTI = s.inhibitSTI := rfl
@[simp] theorem putFlag_trapPending (s : State) (i : Nat) (b : Bool) :
    (s.putFlag i b).trapPending = s.trapPending := rfl
@[simp] theorem putFlag_run (s : State) (i : Nat) (b : Bool) : (s.putFlag i b).run = s.run := rfl
@[simp] theorem putFlag_intr (s : State) (i : Nat) (b : Bool) : (s.putFlag i b).intr = s.intr := rfl
@[simp] theorem putFlag_nmi (s : State) (i : Nat) (b : Bool) : (s.putFlag i b).nmi = s.nmi := rfl
@[simp] theorem putFlag_resetPin (s : State) (i : Nat) (b : Bool) : (s.putFlag i b).resetPin = s.resetPin := rfl
@[simp] theorem putFlag_mem (s : State) (i : Nat) (b : Bool) : (s.putFlag i b).mem = s.mem := rfl
@[simp] theorem putFlag_physMap (s : State) (i : Nat) (b : Bool) : (s.putFlag i b).physMap = s.physMap := rfl
@[simp] theorem putFlag_ioLog (s : State) (i : Nat) (b : Bool) : (s.putFlag i b).ioLog = s.ioLog := rfl
@[simp] theorem putFlag_freeCtr (s : State) (i : Nat) (b : Bool) : (s.putFlag i b).freeCtr = s.freeCtr := rfl
@[simp] theorem putFlag_ctx (s : State) (i : Nat) (b : Bool) : (s.putFlag i b).ctx = s.ctx := rfl

/-! ## Fields that a write of the six status flags leaves alone -/

@[simp] theorem setFlags_gprs (s : State) (f : Flags) : (s.setFlags f).gprs = s.gprs := rfl
@[simp] theorem setFlags_eip (s : State) (f : Flags) : (s.setFlags f).eip = s.eip := rfl
@[simp] theorem setFlags_eipOver (s : State) (f : Flags) : (s.setFlags f).eipOver = s.eipOver := rfl
@[simp] theorem setFlags_cpl (s : State) (f : Flags) : (s.setFlags f).cpl = s.cpl := rfl
@[simp] theorem setFlags_segs (s : State) (f : Flags) : (s.setFlags f).segs = s.segs := rfl
@[simp] theorem setFlags_gdtr (s : State) (f : Flags) : (s.setFlags f).gdtr = s.gdtr := rfl
@[simp] theorem setFlags_idtr (s : State) (f : Flags) : (s.setFlags f).idtr = s.idtr := rfl
@[simp] theorem setFlags_ldtr (s : State) (f : Flags) : (s.setFlags f).ldtr = s.ldtr := rfl
@[simp] theorem setFlags_tr (s : State) (f : Flags) : (s.setFlags f).tr = s.tr := rfl
@[simp] theorem setFlags_cr0 (s : State) (f : Flags) : (s.setFlags f).cr0 = s.cr0 := rfl
@[simp] theorem setFlags_cr2 (s : State) (f : Flags) : (s.setFlags f).cr2 = s.cr2 := rfl
@[simp] theorem setFlags_cr3 (s : State) (f : Flags) : (s.setFlags f).cr3 = s.cr3 := rfl
@[simp] theorem setFlags_dr0 (s : State) (f : Flags) : (s.setFlags f).dr0 = s.dr0 := rfl
@[simp] theorem setFlags_dr1 (s : State) (f : Flags) : (s.setFlags f).dr1 = s.dr1 := rfl
@[simp] theorem setFlags_dr2 (s : State) (f : Flags) : (s.setFlags f).dr2 = s.dr2 := rfl
@[simp] theorem setFlags_dr3 (s : State) (f : Flags) : (s.setFlags f).dr3 = s.dr3 := rfl
@[simp] theorem setFlags_dr6 (s : State) (f : Flags) : (s.setFlags f).dr6 = s.dr6 := rfl
@[simp] theorem setFlags_dr7 (s : State) (f : Flags) : (s.setFlags f).dr7 = s.dr7 := rfl
@[simp] theorem setFlags_tr6 (s : State) (f : Flags) : (s.setFlags f).tr6 = s.tr6 := rfl
@[simp] theorem setFlags_tr7 (s : State) (f : Flags) : (s.setFlags f).tr7 = s.tr7 := rfl
@[simp] theorem setFlags_tlb (s : State) (f : Flags) : (s.setFlags f).tlb = s.tlb := rfl
@[simp] theorem setFlags_tlbDup (s : State) (f : Flags) : (s.setFlags f).tlbDup = s.tlbDup := rfl
@[simp] theorem setFlags_prefetch (s : State) (f : Flags) : (s.setFlags f).prefetch = s.prefetch := rfl
@[simp] theorem setFlags_nmiLatch (s : State) (f : Flags) : (s.setFlags f).nmiLatch = s.nmiLatch := rfl
@[simp] theorem setFlags_inhibitSS (s : State) (f : Flags) : (s.setFlags f).inhibitSS = s.inhibitSS := rfl
@[simp] theorem setFlags_inhibitSTI (s : State) (f : Flags) : (s.setFlags f).inhibitSTI = s.inhibitSTI := rfl
@[simp] theorem setFlags_trapPending (s : State) (f : Flags) : (s.setFlags f).trapPending = s.trapPending := rfl
@[simp] theorem setFlags_run (s : State) (f : Flags) : (s.setFlags f).run = s.run := rfl
@[simp] theorem setFlags_intr (s : State) (f : Flags) : (s.setFlags f).intr = s.intr := rfl
@[simp] theorem setFlags_nmi (s : State) (f : Flags) : (s.setFlags f).nmi = s.nmi := rfl
@[simp] theorem setFlags_resetPin (s : State) (f : Flags) : (s.setFlags f).resetPin = s.resetPin := rfl
@[simp] theorem setFlags_mem (s : State) (f : Flags) : (s.setFlags f).mem = s.mem := rfl
@[simp] theorem setFlags_physMap (s : State) (f : Flags) : (s.setFlags f).physMap = s.physMap := rfl
@[simp] theorem setFlags_ioLog (s : State) (f : Flags) : (s.setFlags f).ioLog = s.ioLog := rfl
@[simp] theorem setFlags_freeCtr (s : State) (f : Flags) : (s.setFlags f).freeCtr = s.freeCtr := rfl
@[simp] theorem setFlags_ctx (s : State) (f : Flags) : (s.setFlags f).ctx = s.ctx := rfl

/-! ## Fields that a transfer inside the code segment leaves alone -/

@[simp] theorem goTo_gprs (s : State) (off : Dword) : (s.goTo off).gprs = s.gprs := rfl
@[simp] theorem goTo_eflags (s : State) (off : Dword) : (s.goTo off).eflags = s.eflags := rfl
@[simp] theorem goTo_cpl (s : State) (off : Dword) : (s.goTo off).cpl = s.cpl := rfl
@[simp] theorem goTo_segs (s : State) (off : Dword) : (s.goTo off).segs = s.segs := rfl
@[simp] theorem goTo_gdtr (s : State) (off : Dword) : (s.goTo off).gdtr = s.gdtr := rfl
@[simp] theorem goTo_idtr (s : State) (off : Dword) : (s.goTo off).idtr = s.idtr := rfl
@[simp] theorem goTo_ldtr (s : State) (off : Dword) : (s.goTo off).ldtr = s.ldtr := rfl
@[simp] theorem goTo_tr (s : State) (off : Dword) : (s.goTo off).tr = s.tr := rfl
@[simp] theorem goTo_cr0 (s : State) (off : Dword) : (s.goTo off).cr0 = s.cr0 := rfl
@[simp] theorem goTo_cr2 (s : State) (off : Dword) : (s.goTo off).cr2 = s.cr2 := rfl
@[simp] theorem goTo_cr3 (s : State) (off : Dword) : (s.goTo off).cr3 = s.cr3 := rfl
@[simp] theorem goTo_dr0 (s : State) (off : Dword) : (s.goTo off).dr0 = s.dr0 := rfl
@[simp] theorem goTo_dr1 (s : State) (off : Dword) : (s.goTo off).dr1 = s.dr1 := rfl
@[simp] theorem goTo_dr2 (s : State) (off : Dword) : (s.goTo off).dr2 = s.dr2 := rfl
@[simp] theorem goTo_dr3 (s : State) (off : Dword) : (s.goTo off).dr3 = s.dr3 := rfl
@[simp] theorem goTo_dr6 (s : State) (off : Dword) : (s.goTo off).dr6 = s.dr6 := rfl
@[simp] theorem goTo_dr7 (s : State) (off : Dword) : (s.goTo off).dr7 = s.dr7 := rfl
@[simp] theorem goTo_tr6 (s : State) (off : Dword) : (s.goTo off).tr6 = s.tr6 := rfl
@[simp] theorem goTo_tr7 (s : State) (off : Dword) : (s.goTo off).tr7 = s.tr7 := rfl
@[simp] theorem goTo_tlb (s : State) (off : Dword) : (s.goTo off).tlb = s.tlb := rfl
@[simp] theorem goTo_tlbDup (s : State) (off : Dword) : (s.goTo off).tlbDup = s.tlbDup := rfl
@[simp] theorem goTo_nmiLatch (s : State) (off : Dword) : (s.goTo off).nmiLatch = s.nmiLatch := rfl
@[simp] theorem goTo_inhibitSS (s : State) (off : Dword) : (s.goTo off).inhibitSS = s.inhibitSS := rfl
@[simp] theorem goTo_inhibitSTI (s : State) (off : Dword) : (s.goTo off).inhibitSTI = s.inhibitSTI := rfl
@[simp] theorem goTo_trapPending (s : State) (off : Dword) : (s.goTo off).trapPending = s.trapPending := rfl
@[simp] theorem goTo_run (s : State) (off : Dword) : (s.goTo off).run = s.run := rfl
@[simp] theorem goTo_intr (s : State) (off : Dword) : (s.goTo off).intr = s.intr := rfl
@[simp] theorem goTo_nmi (s : State) (off : Dword) : (s.goTo off).nmi = s.nmi := rfl
@[simp] theorem goTo_resetPin (s : State) (off : Dword) : (s.goTo off).resetPin = s.resetPin := rfl
@[simp] theorem goTo_mem (s : State) (off : Dword) : (s.goTo off).mem = s.mem := rfl
@[simp] theorem goTo_physMap (s : State) (off : Dword) : (s.goTo off).physMap = s.physMap := rfl
@[simp] theorem goTo_ioLog (s : State) (off : Dword) : (s.goTo off).ioLog = s.ioLog := rfl
@[simp] theorem goTo_freeCtr (s : State) (off : Dword) : (s.goTo off).freeCtr = s.freeCtr := rfl
@[simp] theorem goTo_ctx (s : State) (off : Dword) : (s.goTo off).ctx = s.ctx := rfl

/-! ## Fields that going on to the next instruction leaves alone -/

@[simp] theorem advance_gprs (s : State) : s.advance.gprs = s.gprs := rfl
@[simp] theorem advance_eflags (s : State) : s.advance.eflags = s.eflags := rfl
@[simp] theorem advance_cpl (s : State) : s.advance.cpl = s.cpl := rfl
@[simp] theorem advance_segs (s : State) : s.advance.segs = s.segs := rfl
@[simp] theorem advance_gdtr (s : State) : s.advance.gdtr = s.gdtr := rfl
@[simp] theorem advance_idtr (s : State) : s.advance.idtr = s.idtr := rfl
@[simp] theorem advance_ldtr (s : State) : s.advance.ldtr = s.ldtr := rfl
@[simp] theorem advance_tr (s : State) : s.advance.tr = s.tr := rfl
@[simp] theorem advance_cr0 (s : State) : s.advance.cr0 = s.cr0 := rfl
@[simp] theorem advance_cr2 (s : State) : s.advance.cr2 = s.cr2 := rfl
@[simp] theorem advance_cr3 (s : State) : s.advance.cr3 = s.cr3 := rfl
@[simp] theorem advance_dr0 (s : State) : s.advance.dr0 = s.dr0 := rfl
@[simp] theorem advance_dr1 (s : State) : s.advance.dr1 = s.dr1 := rfl
@[simp] theorem advance_dr2 (s : State) : s.advance.dr2 = s.dr2 := rfl
@[simp] theorem advance_dr3 (s : State) : s.advance.dr3 = s.dr3 := rfl
@[simp] theorem advance_dr6 (s : State) : s.advance.dr6 = s.dr6 := rfl
@[simp] theorem advance_dr7 (s : State) : s.advance.dr7 = s.dr7 := rfl
@[simp] theorem advance_tr6 (s : State) : s.advance.tr6 = s.tr6 := rfl
@[simp] theorem advance_tr7 (s : State) : s.advance.tr7 = s.tr7 := rfl
@[simp] theorem advance_tlb (s : State) : s.advance.tlb = s.tlb := rfl
@[simp] theorem advance_tlbDup (s : State) : s.advance.tlbDup = s.tlbDup := rfl
@[simp] theorem advance_prefetch (s : State) : s.advance.prefetch = s.prefetch := rfl
@[simp] theorem advance_nmiLatch (s : State) : s.advance.nmiLatch = s.nmiLatch := rfl
@[simp] theorem advance_inhibitSS (s : State) : s.advance.inhibitSS = s.inhibitSS := rfl
@[simp] theorem advance_inhibitSTI (s : State) : s.advance.inhibitSTI = s.inhibitSTI := rfl
@[simp] theorem advance_trapPending (s : State) : s.advance.trapPending = s.trapPending := rfl
@[simp] theorem advance_run (s : State) : s.advance.run = s.run := rfl
@[simp] theorem advance_intr (s : State) : s.advance.intr = s.intr := rfl
@[simp] theorem advance_nmi (s : State) : s.advance.nmi = s.nmi := rfl
@[simp] theorem advance_resetPin (s : State) : s.advance.resetPin = s.resetPin := rfl
@[simp] theorem advance_mem (s : State) : s.advance.mem = s.mem := rfl
@[simp] theorem advance_physMap (s : State) : s.advance.physMap = s.physMap := rfl
@[simp] theorem advance_ioLog (s : State) : s.advance.ioLog = s.ioLog := rfl
@[simp] theorem advance_freeCtr (s : State) : s.advance.freeCtr = s.freeCtr := rfl
@[simp] theorem advance_ctx (s : State) : s.advance.ctx = s.ctx := rfl

/-! ## Fields that an event for the environment leaves alone -/

@[simp] theorem event_gprs (s : State) (e : IoEvent) : (s.event e).gprs = s.gprs := rfl
@[simp] theorem event_eip (s : State) (e : IoEvent) : (s.event e).eip = s.eip := rfl
@[simp] theorem event_eipOver (s : State) (e : IoEvent) : (s.event e).eipOver = s.eipOver := rfl
@[simp] theorem event_eflags (s : State) (e : IoEvent) : (s.event e).eflags = s.eflags := rfl
@[simp] theorem event_cpl (s : State) (e : IoEvent) : (s.event e).cpl = s.cpl := rfl
@[simp] theorem event_segs (s : State) (e : IoEvent) : (s.event e).segs = s.segs := rfl
@[simp] theorem event_gdtr (s : State) (e : IoEvent) : (s.event e).gdtr = s.gdtr := rfl
@[simp] theorem event_idtr (s : State) (e : IoEvent) : (s.event e).idtr = s.idtr := rfl
@[simp] theorem event_ldtr (s : State) (e : IoEvent) : (s.event e).ldtr = s.ldtr := rfl
@[simp] theorem event_tr (s : State) (e : IoEvent) : (s.event e).tr = s.tr := rfl
@[simp] theorem event_cr0 (s : State) (e : IoEvent) : (s.event e).cr0 = s.cr0 := rfl
@[simp] theorem event_cr2 (s : State) (e : IoEvent) : (s.event e).cr2 = s.cr2 := rfl
@[simp] theorem event_cr3 (s : State) (e : IoEvent) : (s.event e).cr3 = s.cr3 := rfl
@[simp] theorem event_dr0 (s : State) (e : IoEvent) : (s.event e).dr0 = s.dr0 := rfl
@[simp] theorem event_dr1 (s : State) (e : IoEvent) : (s.event e).dr1 = s.dr1 := rfl
@[simp] theorem event_dr2 (s : State) (e : IoEvent) : (s.event e).dr2 = s.dr2 := rfl
@[simp] theorem event_dr3 (s : State) (e : IoEvent) : (s.event e).dr3 = s.dr3 := rfl
@[simp] theorem event_dr6 (s : State) (e : IoEvent) : (s.event e).dr6 = s.dr6 := rfl
@[simp] theorem event_dr7 (s : State) (e : IoEvent) : (s.event e).dr7 = s.dr7 := rfl
@[simp] theorem event_tr6 (s : State) (e : IoEvent) : (s.event e).tr6 = s.tr6 := rfl
@[simp] theorem event_tr7 (s : State) (e : IoEvent) : (s.event e).tr7 = s.tr7 := rfl
@[simp] theorem event_tlb (s : State) (e : IoEvent) : (s.event e).tlb = s.tlb := rfl
@[simp] theorem event_tlbDup (s : State) (e : IoEvent) : (s.event e).tlbDup = s.tlbDup := rfl
@[simp] theorem event_prefetch (s : State) (e : IoEvent) : (s.event e).prefetch = s.prefetch := rfl
@[simp] theorem event_nmiLatch (s : State) (e : IoEvent) : (s.event e).nmiLatch = s.nmiLatch := rfl
@[simp] theorem event_inhibitSS (s : State) (e : IoEvent) : (s.event e).inhibitSS = s.inhibitSS := rfl
@[simp] theorem event_inhibitSTI (s : State) (e : IoEvent) : (s.event e).inhibitSTI = s.inhibitSTI := rfl
@[simp] theorem event_trapPending (s : State) (e : IoEvent) : (s.event e).trapPending = s.trapPending := rfl
@[simp] theorem event_run (s : State) (e : IoEvent) : (s.event e).run = s.run := rfl
@[simp] theorem event_intr (s : State) (e : IoEvent) : (s.event e).intr = s.intr := rfl
@[simp] theorem event_nmi (s : State) (e : IoEvent) : (s.event e).nmi = s.nmi := rfl
@[simp] theorem event_resetPin (s : State) (e : IoEvent) : (s.event e).resetPin = s.resetPin := rfl
@[simp] theorem event_mem (s : State) (e : IoEvent) : (s.event e).mem = s.mem := rfl
@[simp] theorem event_physMap (s : State) (e : IoEvent) : (s.event e).physMap = s.physMap := rfl
@[simp] theorem event_freeCtr (s : State) (e : IoEvent) : (s.event e).freeCtr = s.freeCtr := rfl
@[simp] theorem event_ctx (s : State) (e : IoEvent) : (s.event e).ctx = s.ctx := rfl

/-! ## Fields that a write of a TLB entry leaves alone -/

@[simp] theorem setTlbEntry_gprs (s : State) (la : Dword) (way : Nat) (e : TlbEntry) :
    (s.setTlbEntry la way e).gprs = s.gprs := rfl
@[simp] theorem setTlbEntry_eip (s : State) (la : Dword) (way : Nat) (e : TlbEntry) :
    (s.setTlbEntry la way e).eip = s.eip := rfl
@[simp] theorem setTlbEntry_eipOver (s : State) (la : Dword) (way : Nat) (e : TlbEntry) :
    (s.setTlbEntry la way e).eipOver = s.eipOver := rfl
@[simp] theorem setTlbEntry_eflags (s : State) (la : Dword) (way : Nat) (e : TlbEntry) :
    (s.setTlbEntry la way e).eflags = s.eflags := rfl
@[simp] theorem setTlbEntry_cpl (s : State) (la : Dword) (way : Nat) (e : TlbEntry) :
    (s.setTlbEntry la way e).cpl = s.cpl := rfl
@[simp] theorem setTlbEntry_segs (s : State) (la : Dword) (way : Nat) (e : TlbEntry) :
    (s.setTlbEntry la way e).segs = s.segs := rfl
@[simp] theorem setTlbEntry_gdtr (s : State) (la : Dword) (way : Nat) (e : TlbEntry) :
    (s.setTlbEntry la way e).gdtr = s.gdtr := rfl
@[simp] theorem setTlbEntry_idtr (s : State) (la : Dword) (way : Nat) (e : TlbEntry) :
    (s.setTlbEntry la way e).idtr = s.idtr := rfl
@[simp] theorem setTlbEntry_ldtr (s : State) (la : Dword) (way : Nat) (e : TlbEntry) :
    (s.setTlbEntry la way e).ldtr = s.ldtr := rfl
@[simp] theorem setTlbEntry_tr (s : State) (la : Dword) (way : Nat) (e : TlbEntry) :
    (s.setTlbEntry la way e).tr = s.tr := rfl
@[simp] theorem setTlbEntry_cr0 (s : State) (la : Dword) (way : Nat) (e : TlbEntry) :
    (s.setTlbEntry la way e).cr0 = s.cr0 := rfl
@[simp] theorem setTlbEntry_cr2 (s : State) (la : Dword) (way : Nat) (e : TlbEntry) :
    (s.setTlbEntry la way e).cr2 = s.cr2 := rfl
@[simp] theorem setTlbEntry_cr3 (s : State) (la : Dword) (way : Nat) (e : TlbEntry) :
    (s.setTlbEntry la way e).cr3 = s.cr3 := rfl
@[simp] theorem setTlbEntry_dr0 (s : State) (la : Dword) (way : Nat) (e : TlbEntry) :
    (s.setTlbEntry la way e).dr0 = s.dr0 := rfl
@[simp] theorem setTlbEntry_dr1 (s : State) (la : Dword) (way : Nat) (e : TlbEntry) :
    (s.setTlbEntry la way e).dr1 = s.dr1 := rfl
@[simp] theorem setTlbEntry_dr2 (s : State) (la : Dword) (way : Nat) (e : TlbEntry) :
    (s.setTlbEntry la way e).dr2 = s.dr2 := rfl
@[simp] theorem setTlbEntry_dr3 (s : State) (la : Dword) (way : Nat) (e : TlbEntry) :
    (s.setTlbEntry la way e).dr3 = s.dr3 := rfl
@[simp] theorem setTlbEntry_dr6 (s : State) (la : Dword) (way : Nat) (e : TlbEntry) :
    (s.setTlbEntry la way e).dr6 = s.dr6 := rfl
@[simp] theorem setTlbEntry_dr7 (s : State) (la : Dword) (way : Nat) (e : TlbEntry) :
    (s.setTlbEntry la way e).dr7 = s.dr7 := rfl
@[simp] theorem setTlbEntry_tr6 (s : State) (la : Dword) (way : Nat) (e : TlbEntry) :
    (s.setTlbEntry la way e).tr6 = s.tr6 := rfl
@[simp] theorem setTlbEntry_tr7 (s : State) (la : Dword) (way : Nat) (e : TlbEntry) :
    (s.setTlbEntry la way e).tr7 = s.tr7 := rfl
@[simp] theorem setTlbEntry_tlbDup (s : State) (la : Dword) (way : Nat) (e : TlbEntry) :
    (s.setTlbEntry la way e).tlbDup = s.tlbDup := rfl
@[simp] theorem setTlbEntry_prefetch (s : State) (la : Dword) (way : Nat) (e : TlbEntry) :
    (s.setTlbEntry la way e).prefetch = s.prefetch := rfl
@[simp] theorem setTlbEntry_nmiLatch (s : State) (la : Dword) (way : Nat) (e : TlbEntry) :
    (s.setTlbEntry la way e).nmiLatch = s.nmiLatch := rfl
@[simp] theorem setTlbEntry_inhibitSS (s : State) (la : Dword) (way : Nat) (e : TlbEntry) :
    (s.setTlbEntry la way e).inhibitSS = s.inhibitSS := rfl
@[simp] theorem setTlbEntry_inhibitSTI (s : State) (la : Dword) (way : Nat) (e : TlbEntry) :
    (s.setTlbEntry la way e).inhibitSTI = s.inhibitSTI := rfl
@[simp] theorem setTlbEntry_trapPending (s : State) (la : Dword) (way : Nat) (e : TlbEntry) :
    (s.setTlbEntry la way e).trapPending = s.trapPending := rfl
@[simp] theorem setTlbEntry_run (s : State) (la : Dword) (way : Nat) (e : TlbEntry) :
    (s.setTlbEntry la way e).run = s.run := rfl
@[simp] theorem setTlbEntry_intr (s : State) (la : Dword) (way : Nat) (e : TlbEntry) :
    (s.setTlbEntry la way e).intr = s.intr := rfl
@[simp] theorem setTlbEntry_nmi (s : State) (la : Dword) (way : Nat) (e : TlbEntry) :
    (s.setTlbEntry la way e).nmi = s.nmi := rfl
@[simp] theorem setTlbEntry_resetPin (s : State) (la : Dword) (way : Nat) (e : TlbEntry) :
    (s.setTlbEntry la way e).resetPin = s.resetPin := rfl
@[simp] theorem setTlbEntry_mem (s : State) (la : Dword) (way : Nat) (e : TlbEntry) :
    (s.setTlbEntry la way e).mem = s.mem := rfl
@[simp] theorem setTlbEntry_physMap (s : State) (la : Dword) (way : Nat) (e : TlbEntry) :
    (s.setTlbEntry la way e).physMap = s.physMap := rfl
@[simp] theorem setTlbEntry_ioLog (s : State) (la : Dword) (way : Nat) (e : TlbEntry) :
    (s.setTlbEntry la way e).ioLog = s.ioLog := rfl
@[simp] theorem setTlbEntry_freeCtr (s : State) (la : Dword) (way : Nat) (e : TlbEntry) :
    (s.setTlbEntry la way e).freeCtr = s.freeCtr := rfl
@[simp] theorem setTlbEntry_ctx (s : State) (la : Dword) (way : Nat) (e : TlbEntry) :
    (s.setTlbEntry la way e).ctx = s.ctx := rfl

/-! ## Fields that a flush of the TLB leaves alone -/

@[simp] theorem flushTlb_gprs (s : State) : s.flushTlb.gprs = s.gprs := rfl
@[simp] theorem flushTlb_eip (s : State) : s.flushTlb.eip = s.eip := rfl
@[simp] theorem flushTlb_eipOver (s : State) : s.flushTlb.eipOver = s.eipOver := rfl
@[simp] theorem flushTlb_eflags (s : State) : s.flushTlb.eflags = s.eflags := rfl
@[simp] theorem flushTlb_cpl (s : State) : s.flushTlb.cpl = s.cpl := rfl
@[simp] theorem flushTlb_segs (s : State) : s.flushTlb.segs = s.segs := rfl
@[simp] theorem flushTlb_gdtr (s : State) : s.flushTlb.gdtr = s.gdtr := rfl
@[simp] theorem flushTlb_idtr (s : State) : s.flushTlb.idtr = s.idtr := rfl
@[simp] theorem flushTlb_ldtr (s : State) : s.flushTlb.ldtr = s.ldtr := rfl
@[simp] theorem flushTlb_tr (s : State) : s.flushTlb.tr = s.tr := rfl
@[simp] theorem flushTlb_cr0 (s : State) : s.flushTlb.cr0 = s.cr0 := rfl
@[simp] theorem flushTlb_cr2 (s : State) : s.flushTlb.cr2 = s.cr2 := rfl
@[simp] theorem flushTlb_cr3 (s : State) : s.flushTlb.cr3 = s.cr3 := rfl
@[simp] theorem flushTlb_dr0 (s : State) : s.flushTlb.dr0 = s.dr0 := rfl
@[simp] theorem flushTlb_dr1 (s : State) : s.flushTlb.dr1 = s.dr1 := rfl
@[simp] theorem flushTlb_dr2 (s : State) : s.flushTlb.dr2 = s.dr2 := rfl
@[simp] theorem flushTlb_dr3 (s : State) : s.flushTlb.dr3 = s.dr3 := rfl
@[simp] theorem flushTlb_dr6 (s : State) : s.flushTlb.dr6 = s.dr6 := rfl
@[simp] theorem flushTlb_dr7 (s : State) : s.flushTlb.dr7 = s.dr7 := rfl
@[simp] theorem flushTlb_tr6 (s : State) : s.flushTlb.tr6 = s.tr6 := rfl
@[simp] theorem flushTlb_tr7 (s : State) : s.flushTlb.tr7 = s.tr7 := rfl
@[simp] theorem flushTlb_prefetch (s : State) : s.flushTlb.prefetch = s.prefetch := rfl
@[simp] theorem flushTlb_nmiLatch (s : State) : s.flushTlb.nmiLatch = s.nmiLatch := rfl
@[simp] theorem flushTlb_inhibitSS (s : State) : s.flushTlb.inhibitSS = s.inhibitSS := rfl
@[simp] theorem flushTlb_inhibitSTI (s : State) : s.flushTlb.inhibitSTI = s.inhibitSTI := rfl
@[simp] theorem flushTlb_trapPending (s : State) : s.flushTlb.trapPending = s.trapPending := rfl
@[simp] theorem flushTlb_run (s : State) : s.flushTlb.run = s.run := rfl
@[simp] theorem flushTlb_intr (s : State) : s.flushTlb.intr = s.intr := rfl
@[simp] theorem flushTlb_nmi (s : State) : s.flushTlb.nmi = s.nmi := rfl
@[simp] theorem flushTlb_resetPin (s : State) : s.flushTlb.resetPin = s.resetPin := rfl
@[simp] theorem flushTlb_mem (s : State) : s.flushTlb.mem = s.mem := rfl
@[simp] theorem flushTlb_physMap (s : State) : s.flushTlb.physMap = s.physMap := rfl
@[simp] theorem flushTlb_ioLog (s : State) : s.flushTlb.ioLog = s.ioLog := rfl
@[simp] theorem flushTlb_freeCtr (s : State) : s.flushTlb.freeCtr = s.freeCtr := rfl
@[simp] theorem flushTlb_ctx (s : State) : s.flushTlb.ctx = s.ctx := rfl

/-! ## Fields that the start of an instruction leaves alone -/

@[simp] theorem begin_gprs (s : State) (len : Nat) : (s.begin len).gprs = s.gprs := rfl
@[simp] theorem begin_eip (s : State) (len : Nat) : (s.begin len).eip = s.eip := rfl
@[simp] theorem begin_eipOver (s : State) (len : Nat) : (s.begin len).eipOver = s.eipOver := rfl
@[simp] theorem begin_eflags (s : State) (len : Nat) : (s.begin len).eflags = s.eflags := rfl
@[simp] theorem begin_cpl (s : State) (len : Nat) : (s.begin len).cpl = s.cpl := rfl
@[simp] theorem begin_segs (s : State) (len : Nat) : (s.begin len).segs = s.segs := rfl
@[simp] theorem begin_gdtr (s : State) (len : Nat) : (s.begin len).gdtr = s.gdtr := rfl
@[simp] theorem begin_idtr (s : State) (len : Nat) : (s.begin len).idtr = s.idtr := rfl
@[simp] theorem begin_ldtr (s : State) (len : Nat) : (s.begin len).ldtr = s.ldtr := rfl
@[simp] theorem begin_tr (s : State) (len : Nat) : (s.begin len).tr = s.tr := rfl
@[simp] theorem begin_cr0 (s : State) (len : Nat) : (s.begin len).cr0 = s.cr0 := rfl
@[simp] theorem begin_cr2 (s : State) (len : Nat) : (s.begin len).cr2 = s.cr2 := rfl
@[simp] theorem begin_cr3 (s : State) (len : Nat) : (s.begin len).cr3 = s.cr3 := rfl
@[simp] theorem begin_dr0 (s : State) (len : Nat) : (s.begin len).dr0 = s.dr0 := rfl
@[simp] theorem begin_dr1 (s : State) (len : Nat) : (s.begin len).dr1 = s.dr1 := rfl
@[simp] theorem begin_dr2 (s : State) (len : Nat) : (s.begin len).dr2 = s.dr2 := rfl
@[simp] theorem begin_dr3 (s : State) (len : Nat) : (s.begin len).dr3 = s.dr3 := rfl
@[simp] theorem begin_dr6 (s : State) (len : Nat) : (s.begin len).dr6 = s.dr6 := rfl
@[simp] theorem begin_dr7 (s : State) (len : Nat) : (s.begin len).dr7 = s.dr7 := rfl
@[simp] theorem begin_tr6 (s : State) (len : Nat) : (s.begin len).tr6 = s.tr6 := rfl
@[simp] theorem begin_tr7 (s : State) (len : Nat) : (s.begin len).tr7 = s.tr7 := rfl
@[simp] theorem begin_tlb (s : State) (len : Nat) : (s.begin len).tlb = s.tlb := rfl
@[simp] theorem begin_tlbDup (s : State) (len : Nat) : (s.begin len).tlbDup = s.tlbDup := rfl
@[simp] theorem begin_prefetch (s : State) (len : Nat) : (s.begin len).prefetch = s.prefetch := rfl
@[simp] theorem begin_nmiLatch (s : State) (len : Nat) : (s.begin len).nmiLatch = s.nmiLatch := rfl
@[simp] theorem begin_inhibitSS (s : State) (len : Nat) : (s.begin len).inhibitSS = s.inhibitSS := rfl
@[simp] theorem begin_inhibitSTI (s : State) (len : Nat) : (s.begin len).inhibitSTI = s.inhibitSTI := rfl
@[simp] theorem begin_trapPending (s : State) (len : Nat) : (s.begin len).trapPending = s.trapPending := rfl
@[simp] theorem begin_run (s : State) (len : Nat) : (s.begin len).run = s.run := rfl
@[simp] theorem begin_intr (s : State) (len : Nat) : (s.begin len).intr = s.intr := rfl
@[simp] theorem begin_nmi (s : State) (len : Nat) : (s.begin len).nmi = s.nmi := rfl
@[simp] theorem begin_resetPin (s : State) (len : Nat) : (s.begin len).resetPin = s.resetPin := rfl
@[simp] theorem begin_mem (s : State) (len : Nat) : (s.begin len).mem = s.mem := rfl
@[simp] theorem begin_physMap (s : State) (len : Nat) : (s.begin len).physMap = s.physMap := rfl
@[simp] theorem begin_ioLog (s : State) (len : Nat) : (s.begin len).ioLog = s.ioLog := rfl
@[simp] theorem begin_freeCtr (s : State) (len : Nat) : (s.begin len).freeCtr = s.freeCtr := rfl

/-! ## Fields that the drawing of free values leaves alone -/

@[simp] theorem drawn_gprs (s : State) (k : Nat) : (s.drawn k).gprs = s.gprs := rfl
@[simp] theorem drawn_eip (s : State) (k : Nat) : (s.drawn k).eip = s.eip := rfl
@[simp] theorem drawn_eipOver (s : State) (k : Nat) : (s.drawn k).eipOver = s.eipOver := rfl
@[simp] theorem drawn_eflags (s : State) (k : Nat) : (s.drawn k).eflags = s.eflags := rfl
@[simp] theorem drawn_cpl (s : State) (k : Nat) : (s.drawn k).cpl = s.cpl := rfl
@[simp] theorem drawn_segs (s : State) (k : Nat) : (s.drawn k).segs = s.segs := rfl
@[simp] theorem drawn_gdtr (s : State) (k : Nat) : (s.drawn k).gdtr = s.gdtr := rfl
@[simp] theorem drawn_idtr (s : State) (k : Nat) : (s.drawn k).idtr = s.idtr := rfl
@[simp] theorem drawn_ldtr (s : State) (k : Nat) : (s.drawn k).ldtr = s.ldtr := rfl
@[simp] theorem drawn_tr (s : State) (k : Nat) : (s.drawn k).tr = s.tr := rfl
@[simp] theorem drawn_cr0 (s : State) (k : Nat) : (s.drawn k).cr0 = s.cr0 := rfl
@[simp] theorem drawn_cr2 (s : State) (k : Nat) : (s.drawn k).cr2 = s.cr2 := rfl
@[simp] theorem drawn_cr3 (s : State) (k : Nat) : (s.drawn k).cr3 = s.cr3 := rfl
@[simp] theorem drawn_dr0 (s : State) (k : Nat) : (s.drawn k).dr0 = s.dr0 := rfl
@[simp] theorem drawn_dr1 (s : State) (k : Nat) : (s.drawn k).dr1 = s.dr1 := rfl
@[simp] theorem drawn_dr2 (s : State) (k : Nat) : (s.drawn k).dr2 = s.dr2 := rfl
@[simp] theorem drawn_dr3 (s : State) (k : Nat) : (s.drawn k).dr3 = s.dr3 := rfl
@[simp] theorem drawn_dr6 (s : State) (k : Nat) : (s.drawn k).dr6 = s.dr6 := rfl
@[simp] theorem drawn_dr7 (s : State) (k : Nat) : (s.drawn k).dr7 = s.dr7 := rfl
@[simp] theorem drawn_tr6 (s : State) (k : Nat) : (s.drawn k).tr6 = s.tr6 := rfl
@[simp] theorem drawn_tr7 (s : State) (k : Nat) : (s.drawn k).tr7 = s.tr7 := rfl
@[simp] theorem drawn_tlb (s : State) (k : Nat) : (s.drawn k).tlb = s.tlb := rfl
@[simp] theorem drawn_tlbDup (s : State) (k : Nat) : (s.drawn k).tlbDup = s.tlbDup := rfl
@[simp] theorem drawn_prefetch (s : State) (k : Nat) : (s.drawn k).prefetch = s.prefetch := rfl
@[simp] theorem drawn_nmiLatch (s : State) (k : Nat) : (s.drawn k).nmiLatch = s.nmiLatch := rfl
@[simp] theorem drawn_inhibitSS (s : State) (k : Nat) : (s.drawn k).inhibitSS = s.inhibitSS := rfl
@[simp] theorem drawn_inhibitSTI (s : State) (k : Nat) : (s.drawn k).inhibitSTI = s.inhibitSTI := rfl
@[simp] theorem drawn_trapPending (s : State) (k : Nat) : (s.drawn k).trapPending = s.trapPending := rfl
@[simp] theorem drawn_run (s : State) (k : Nat) : (s.drawn k).run = s.run := rfl
@[simp] theorem drawn_intr (s : State) (k : Nat) : (s.drawn k).intr = s.intr := rfl
@[simp] theorem drawn_nmi (s : State) (k : Nat) : (s.drawn k).nmi = s.nmi := rfl
@[simp] theorem drawn_resetPin (s : State) (k : Nat) : (s.drawn k).resetPin = s.resetPin := rfl
@[simp] theorem drawn_mem (s : State) (k : Nat) : (s.drawn k).mem = s.mem := rfl
@[simp] theorem drawn_physMap (s : State) (k : Nat) : (s.drawn k).physMap = s.physMap := rfl
@[simp] theorem drawn_ioLog (s : State) (k : Nat) : (s.drawn k).ioLog = s.ioLog := rfl
@[simp] theorem drawn_ctx (s : State) (k : Nat) : (s.drawn k).ctx = s.ctx := rfl

/-! ## Fields that a write of the stack pointer leaves alone -/

@[simp] theorem setSp_eip (s : State) (v : Dword) : (s.setSp v).eip = s.eip := by unfold State.setSp; split <;> rfl
@[simp] theorem setSp_eipOver (s : State) (v : Dword) :
    (s.setSp v).eipOver = s.eipOver := by unfold State.setSp; split <;> rfl
@[simp] theorem setSp_eflags (s : State) (v : Dword) :
    (s.setSp v).eflags = s.eflags := by unfold State.setSp; split <;> rfl
@[simp] theorem setSp_cpl (s : State) (v : Dword) : (s.setSp v).cpl = s.cpl := by unfold State.setSp; split <;> rfl
@[simp] theorem setSp_segs (s : State) (v : Dword) : (s.setSp v).segs = s.segs := by unfold State.setSp; split <;> rfl
@[simp] theorem setSp_gdtr (s : State) (v : Dword) : (s.setSp v).gdtr = s.gdtr := by unfold State.setSp; split <;> rfl
@[simp] theorem setSp_idtr (s : State) (v : Dword) : (s.setSp v).idtr = s.idtr := by unfold State.setSp; split <;> rfl
@[simp] theorem setSp_ldtr (s : State) (v : Dword) : (s.setSp v).ldtr = s.ldtr := by unfold State.setSp; split <;> rfl
@[simp] theorem setSp_tr (s : State) (v : Dword) : (s.setSp v).tr = s.tr := by unfold State.setSp; split <;> rfl
@[simp] theorem setSp_cr0 (s : State) (v : Dword) : (s.setSp v).cr0 = s.cr0 := by unfold State.setSp; split <;> rfl
@[simp] theorem setSp_cr2 (s : State) (v : Dword) : (s.setSp v).cr2 = s.cr2 := by unfold State.setSp; split <;> rfl
@[simp] theorem setSp_cr3 (s : State) (v : Dword) : (s.setSp v).cr3 = s.cr3 := by unfold State.setSp; split <;> rfl
@[simp] theorem setSp_dr0 (s : State) (v : Dword) : (s.setSp v).dr0 = s.dr0 := by unfold State.setSp; split <;> rfl
@[simp] theorem setSp_dr1 (s : State) (v : Dword) : (s.setSp v).dr1 = s.dr1 := by unfold State.setSp; split <;> rfl
@[simp] theorem setSp_dr2 (s : State) (v : Dword) : (s.setSp v).dr2 = s.dr2 := by unfold State.setSp; split <;> rfl
@[simp] theorem setSp_dr3 (s : State) (v : Dword) : (s.setSp v).dr3 = s.dr3 := by unfold State.setSp; split <;> rfl
@[simp] theorem setSp_dr6 (s : State) (v : Dword) : (s.setSp v).dr6 = s.dr6 := by unfold State.setSp; split <;> rfl
@[simp] theorem setSp_dr7 (s : State) (v : Dword) : (s.setSp v).dr7 = s.dr7 := by unfold State.setSp; split <;> rfl
@[simp] theorem setSp_tr6 (s : State) (v : Dword) : (s.setSp v).tr6 = s.tr6 := by unfold State.setSp; split <;> rfl
@[simp] theorem setSp_tr7 (s : State) (v : Dword) : (s.setSp v).tr7 = s.tr7 := by unfold State.setSp; split <;> rfl
@[simp] theorem setSp_tlb (s : State) (v : Dword) : (s.setSp v).tlb = s.tlb := by unfold State.setSp; split <;> rfl
@[simp] theorem setSp_tlbDup (s : State) (v : Dword) :
    (s.setSp v).tlbDup = s.tlbDup := by unfold State.setSp; split <;> rfl
@[simp] theorem setSp_prefetch (s : State) (v : Dword) :
    (s.setSp v).prefetch = s.prefetch := by unfold State.setSp; split <;> rfl
@[simp] theorem setSp_nmiLatch (s : State) (v : Dword) :
    (s.setSp v).nmiLatch = s.nmiLatch := by unfold State.setSp; split <;> rfl
@[simp] theorem setSp_inhibitSS (s : State) (v : Dword) :
    (s.setSp v).inhibitSS = s.inhibitSS := by unfold State.setSp; split <;> rfl
@[simp] theorem setSp_inhibitSTI (s : State) (v : Dword) :
    (s.setSp v).inhibitSTI = s.inhibitSTI := by unfold State.setSp; split <;> rfl
@[simp] theorem setSp_trapPending (s : State) (v : Dword) :
    (s.setSp v).trapPending = s.trapPending := by unfold State.setSp; split <;> rfl
@[simp] theorem setSp_run (s : State) (v : Dword) : (s.setSp v).run = s.run := by unfold State.setSp; split <;> rfl
@[simp] theorem setSp_intr (s : State) (v : Dword) : (s.setSp v).intr = s.intr := by unfold State.setSp; split <;> rfl
@[simp] theorem setSp_nmi (s : State) (v : Dword) : (s.setSp v).nmi = s.nmi := by unfold State.setSp; split <;> rfl
@[simp] theorem setSp_resetPin (s : State) (v : Dword) :
    (s.setSp v).resetPin = s.resetPin := by unfold State.setSp; split <;> rfl
@[simp] theorem setSp_mem (s : State) (v : Dword) : (s.setSp v).mem = s.mem := by unfold State.setSp; split <;> rfl
@[simp] theorem setSp_physMap (s : State) (v : Dword) :
    (s.setSp v).physMap = s.physMap := by unfold State.setSp; split <;> rfl
@[simp] theorem setSp_ioLog (s : State) (v : Dword) :
    (s.setSp v).ioLog = s.ioLog := by unfold State.setSp; split <;> rfl
@[simp] theorem setSp_freeCtr (s : State) (v : Dword) :
    (s.setSp v).freeCtr = s.freeCtr := by unfold State.setSp; split <;> rfl
@[simp] theorem setSp_ctx (s : State) (v : Dword) : (s.setSp v).ctx = s.ctx := by unfold State.setSp; split <;> rfl

/-! ## Fields that a store to memory leaves alone -/

@[simp] theorem storeBytes_gprs (s : State) (pas : List Dword) (bs : List Byte) :
    (s.storeBytes pas bs).gprs = s.gprs := by rw [storeBytes_eq]
@[simp] theorem storeBytes_eip (s : State) (pas : List Dword) (bs : List Byte) :
    (s.storeBytes pas bs).eip = s.eip := by rw [storeBytes_eq]
@[simp] theorem storeBytes_eipOver (s : State) (pas : List Dword) (bs : List Byte) :
    (s.storeBytes pas bs).eipOver = s.eipOver := by rw [storeBytes_eq]
@[simp] theorem storeBytes_eflags (s : State) (pas : List Dword) (bs : List Byte) :
    (s.storeBytes pas bs).eflags = s.eflags := by rw [storeBytes_eq]
@[simp] theorem storeBytes_cpl (s : State) (pas : List Dword) (bs : List Byte) :
    (s.storeBytes pas bs).cpl = s.cpl := by rw [storeBytes_eq]
@[simp] theorem storeBytes_segs (s : State) (pas : List Dword) (bs : List Byte) :
    (s.storeBytes pas bs).segs = s.segs := by rw [storeBytes_eq]
@[simp] theorem storeBytes_gdtr (s : State) (pas : List Dword) (bs : List Byte) :
    (s.storeBytes pas bs).gdtr = s.gdtr := by rw [storeBytes_eq]
@[simp] theorem storeBytes_idtr (s : State) (pas : List Dword) (bs : List Byte) :
    (s.storeBytes pas bs).idtr = s.idtr := by rw [storeBytes_eq]
@[simp] theorem storeBytes_ldtr (s : State) (pas : List Dword) (bs : List Byte) :
    (s.storeBytes pas bs).ldtr = s.ldtr := by rw [storeBytes_eq]
@[simp] theorem storeBytes_tr (s : State) (pas : List Dword) (bs : List Byte) :
    (s.storeBytes pas bs).tr = s.tr := by rw [storeBytes_eq]
@[simp] theorem storeBytes_cr0 (s : State) (pas : List Dword) (bs : List Byte) :
    (s.storeBytes pas bs).cr0 = s.cr0 := by rw [storeBytes_eq]
@[simp] theorem storeBytes_cr2 (s : State) (pas : List Dword) (bs : List Byte) :
    (s.storeBytes pas bs).cr2 = s.cr2 := by rw [storeBytes_eq]
@[simp] theorem storeBytes_cr3 (s : State) (pas : List Dword) (bs : List Byte) :
    (s.storeBytes pas bs).cr3 = s.cr3 := by rw [storeBytes_eq]
@[simp] theorem storeBytes_dr0 (s : State) (pas : List Dword) (bs : List Byte) :
    (s.storeBytes pas bs).dr0 = s.dr0 := by rw [storeBytes_eq]
@[simp] theorem storeBytes_dr1 (s : State) (pas : List Dword) (bs : List Byte) :
    (s.storeBytes pas bs).dr1 = s.dr1 := by rw [storeBytes_eq]
@[simp] theorem storeBytes_dr2 (s : State) (pas : List Dword) (bs : List Byte) :
    (s.storeBytes pas bs).dr2 = s.dr2 := by rw [storeBytes_eq]
@[simp] theorem storeBytes_dr3 (s : State) (pas : List Dword) (bs : List Byte) :
    (s.storeBytes pas bs).dr3 = s.dr3 := by rw [storeBytes_eq]
@[simp] theorem storeBytes_dr6 (s : State) (pas : List Dword) (bs : List Byte) :
    (s.storeBytes pas bs).dr6 = s.dr6 := by rw [storeBytes_eq]
@[simp] theorem storeBytes_dr7 (s : State) (pas : List Dword) (bs : List Byte) :
    (s.storeBytes pas bs).dr7 = s.dr7 := by rw [storeBytes_eq]
@[simp] theorem storeBytes_tr6 (s : State) (pas : List Dword) (bs : List Byte) :
    (s.storeBytes pas bs).tr6 = s.tr6 := by rw [storeBytes_eq]
@[simp] theorem storeBytes_tr7 (s : State) (pas : List Dword) (bs : List Byte) :
    (s.storeBytes pas bs).tr7 = s.tr7 := by rw [storeBytes_eq]
@[simp] theorem storeBytes_tlb (s : State) (pas : List Dword) (bs : List Byte) :
    (s.storeBytes pas bs).tlb = s.tlb := by rw [storeBytes_eq]
@[simp] theorem storeBytes_tlbDup (s : State) (pas : List Dword) (bs : List Byte) :
    (s.storeBytes pas bs).tlbDup = s.tlbDup := by rw [storeBytes_eq]
@[simp] theorem storeBytes_prefetch (s : State) (pas : List Dword) (bs : List Byte) :
    (s.storeBytes pas bs).prefetch = s.prefetch := by rw [storeBytes_eq]
@[simp] theorem storeBytes_nmiLatch (s : State) (pas : List Dword) (bs : List Byte) :
    (s.storeBytes pas bs).nmiLatch = s.nmiLatch := by rw [storeBytes_eq]
@[simp] theorem storeBytes_inhibitSS (s : State) (pas : List Dword) (bs : List Byte) :
    (s.storeBytes pas bs).inhibitSS = s.inhibitSS := by rw [storeBytes_eq]
@[simp] theorem storeBytes_inhibitSTI (s : State) (pas : List Dword) (bs : List Byte) :
    (s.storeBytes pas bs).inhibitSTI = s.inhibitSTI := by rw [storeBytes_eq]
@[simp] theorem storeBytes_trapPending (s : State) (pas : List Dword) (bs : List Byte) :
    (s.storeBytes pas bs).trapPending = s.trapPending := by rw [storeBytes_eq]
@[simp] theorem storeBytes_run (s : State) (pas : List Dword) (bs : List Byte) :
    (s.storeBytes pas bs).run = s.run := by rw [storeBytes_eq]
@[simp] theorem storeBytes_intr (s : State) (pas : List Dword) (bs : List Byte) :
    (s.storeBytes pas bs).intr = s.intr := by rw [storeBytes_eq]
@[simp] theorem storeBytes_nmi (s : State) (pas : List Dword) (bs : List Byte) :
    (s.storeBytes pas bs).nmi = s.nmi := by rw [storeBytes_eq]
@[simp] theorem storeBytes_resetPin (s : State) (pas : List Dword) (bs : List Byte) :
    (s.storeBytes pas bs).resetPin = s.resetPin := by rw [storeBytes_eq]
@[simp] theorem storeBytes_physMap (s : State) (pas : List Dword) (bs : List Byte) :
    (s.storeBytes pas bs).physMap = s.physMap := by rw [storeBytes_eq]
@[simp] theorem storeBytes_ioLog (s : State) (pas : List Dword) (bs : List Byte) :
    (s.storeBytes pas bs).ioLog = s.ioLog := by rw [storeBytes_eq]
@[simp] theorem storeBytes_freeCtr (s : State) (pas : List Dword) (bs : List Byte) :
    (s.storeBytes pas bs).freeCtr = s.freeCtr := by rw [storeBytes_eq]
@[simp] theorem storeBytes_ctx (s : State) (pas : List Dword) (bs : List Byte) :
    (s.storeBytes pas bs).ctx = s.ctx := by rw [storeBytes_eq]

end Sys2Proof.Machine
end

