-- ==== Sys2Proof/Laws/Segment.lean ====
section
/-! SUPPORT. What reading a descriptor, loading a segment register and pushing several values do when they run, with paging
off. -/

namespace Sys2Proof.Machine

/-- A computation that goes on to another one. -/
theorem bind_then {α β : Type} {x : M α} {f : α → M β} {t t' : Tx} {a : α} {r : EStateM.Result Stop Tx β}
    (h : x t = .ok a t') (hf : f a t' = r) : (x >>= f) t = r := (bind_run_ok h).trans hf

/-- A conditional computation whose condition holds. -/
theorem if_then {α : Type} {c : Prop} [Decidable c] {x y : M α} {t : Tx} {r : EStateM.Result Stop Tx α} (hc : c)
    (h : x t = r) : (if c then x else y) t = r := by rw [ite_run, if_pos hc, h]

/-- A conditional computation whose condition fails. -/
theorem if_else {α : Type} {c : Prop} [Decidable c] {x y : M α} {t : Tx} {r : EStateM.Result Stop Tx α} (hc : ¬c)
    (h : y t = r) : (if c then x else y) t = r := by rw [ite_run, if_neg hc, h]

/-- Storing leaves what stands at an address. -/
@[simp] theorem storeBytes_kindAt (s : State) (pas : List Dword) (bs : List Byte) (x : Nat) :
    (s.storeBytes pas bs).kindAt x = s.kindAt x := by
  rw [storeBytes_eq]
  rfl

/-! ## Descriptors -/

/-- What `descFor` says. -/
theorem descFor_some {s : State} {sel : Word} {d : Desc} (h : s.descFor sel = some d) :
    ∃ tb tl, s.descTable sel = some (tb, tl) ∧ ¬tl.toNat < (sel.extractLsb' 3 13).toNat * 8 + 7 ∧ s.pg = false ∧
      (∀ pa ∈ addrsFrom (tb + BitVec.ofNat 32 ((sel.extractLsb' 3 13).toNat * 8)) 8, s.kindAt pa.toNat = .ram) ∧
      d = { raw := s.valueAt 64 (addrsFrom (tb + BitVec.ofNat 32 ((sel.extractLsb' 3 13).toNat * 8)) 8)
            addr := tb + BitVec.ofNat 32 ((sel.extractLsb' 3 13).toNat * 8) } := by
  unfold State.descFor at h
  cases ht : s.descTable sel with
  | none => rw [ht] at h; exact absurd h (by simp)
  | some p =>
    obtain ⟨tb, tl⟩ := p
    rw [ht] at h
    simp only at h
    split at h
    · exact absurd h (by simp)
    · rename_i hl
      split at h
      · rename_i hk
        simp only [Bool.and_eq_true, Bool.not_eq_true', List.all_eq_true, beq_iff_eq] at hk
        exact ⟨tb, tl, rfl, hl, hk.1, hk.2, (Option.some.inj h).symm⟩
      · exact absurd h (by simp)

/-- Two doublewords of RAM are read as one value, without any other effect. -/
theorem readDesc_run (pas : List Dword) (t : Tx) (h : ∀ pa ∈ pas, t.cur.kindAt pa.toNat = .ram) :
    readDesc pas t = .ok (t.cur.valueAt 64 pas) t := by
  refine bind_then (readPhys_run _ t fun pa hp => h pa (List.mem_of_mem_take hp)) ?_
  refine bind_then (readPhys_run _ t fun pa hp => h pa (List.mem_of_mem_drop hp)) ?_
  rw [← List.map_append, List.take_append_drop]
  rfl

/-- A descriptor in RAM is read without any other effect. -/
theorem fetchDesc_run {sel : Word} {d : Desc} {t : Tx} (h : t.cur.descFor sel = some d) :
    fetchDesc sel t = .ok (some d) t := by
  obtain ⟨tb, tl, ht, hl, hp, hk, rfl⟩ := descFor_some h
  unfold fetchDesc
  refine bind_then (look_run _ t) ?_
  rw [ht]
  simp only [gt_iff_lt, hl, if_false]
  exact bind_then (linPlan_run _ 8 false false t hp) (bind_then (readDesc_run _ t hk) rfl)

/-- The same where a failure would raise an exception. -/
theorem fetchDescOr_run {sel : Word} {fail : M Desc} {d : Desc} {t : Tx} (h : t.cur.descFor sel = some d) :
    fetchDescOr sel fail t = .ok d t := bind_then (fetchDesc_run h) rfl

/-- A descriptor outside its table is not found. -/
theorem fetchDesc_none {sel : Word} {t : Tx} (hr : t.cur.tableRam sel = true) (h : t.cur.descFor sel = none) :
    fetchDesc sel t = .ok none t := by
  unfold State.tableRam at hr
  unfold State.descFor at h
  unfold fetchDesc
  refine bind_then (look_run _ t) ?_
  cases ht : t.cur.descTable sel with
  | none => rfl
  | some p =>
    obtain ⟨tb, tl⟩ := p
    rw [ht] at hr h
    simp only at hr h ⊢
    by_cases hl : tl.toNat < (sel.extractLsb' 3 13).toNat * 8 + 7
    · simp only [gt_iff_lt, hl, if_true]
      rfl
    · simp only [hl, decide_false, Bool.false_or] at hr
      rw [if_neg hl, if_pos hr] at h
      exact absurd h (by simp)

/-- The same where a failure raises an exception. -/
theorem fetchDescOr_none {sel : Word} {fail : M Desc} {t : Tx} (hr : t.cur.tableRam sel = true)
    (h : t.cur.descFor sel = none) : fetchDescOr sel fail t = fail t := bind_then (fetchDesc_none hr h) rfl

/-- An exception whose error code is a selector, EXT clear. -/
theorem raiseSel_run {α : Type} (v : Byte) (sel : Word) {t : Tx} (h : t.ext = false) :
    (raiseSel v sel : M α) t = .error (.raise { vec := v, err := some (selCode sel) }) t := by
  simp [raiseSel, h, bitVal, selCode]

/-- The byte that holds the accessed bit is RAM. -/
theorem descFor_ram {s : State} {sel : Word} {d : Desc} (h : s.descFor sel = some d) :
    s.pg = false ∧ s.kindAt (d.addr + 5).toNat = .ram := by
  obtain ⟨tb, tl, -, -, hp, hk, rfl⟩ := descFor_some h
  refine ⟨hp, hk _ ?_⟩
  simp only [addrsFrom, List.mem_map, List.mem_range]
  exact ⟨5, by omega, rfl⟩

/-- One byte of RAM gets more bits. -/
theorem linSetBits_run (la : Dword) (bits : Byte) (t : Tx) (hp : t.cur.pg = false)
    (hk : t.cur.kindAt la.toNat = .ram) :
    linSetBits la bits t =
      .ok () { t with cur := t.cur.storeByte la (t.cur.byteAt la ||| bits)
                      base := t.base.storeByte la (t.base.byteAt la ||| bits) } := by
  unfold linSetBits
  refine bind_then (linPlan_run la 1 true false t hp) ?_
  have ha : addrsFrom la 1 = [la] := by simp [addrsFrom]
  rw [ha]
  refine bind_then (a := ()) (t' := { t with cur := t.cur.storeByte la (t.cur.byteAt la ||| bits)
                                             base := t.base.storeByte la (t.base.byteAt la ||| bits) }) ?_ rfl
  refine bind_then (look_run _ t) ?_
  simp [hk, setBitsAt]

/-- The accessed bit is set. -/
theorem setAccessed_run (d : Desc) (t : Tx) (hp : t.cur.pg = false) (hk : t.cur.kindAt (d.addr + 5).toNat = .ram) :
    setAccessed d t = .ok () { t with cur := t.cur.accessed d, base := t.base.accessed d } := by
  unfold setAccessed State.accessed
  cases hd : d.typ.getLsbD 0
  · simp only [Bool.not_false, if_true, Bool.false_eq_true, if_false]
    exact linSetBits_run _ _ t hp hk
  · rfl

/-- A segment register is loaded from a checked descriptor. -/
theorem loadSegFrom_run (r : Sreg) (sel : Word) (d : Desc) (t : Tx) (hp : t.cur.pg = false)
    (hk : t.cur.kindAt (d.addr + 5).toNat = .ram) :
    loadSegFrom r sel d t =
      .ok () { t with cur := (t.cur.accessed d).setSeg r (d.toSeg sel), base := t.base.accessed d } :=
  bind_then (setAccessed_run d t hp hk) rfl

/-- CS is loaded and EIP set. -/
theorem loadCS_run (sel : Word) (d : Desc) (off : Dword) (t : Tx) (hp : t.cur.pg = false)
    (hk : t.cur.kindAt (d.addr + 5).toNat = .ram) :
    loadCS sel d off t =
      .ok () { t with cur := ((t.cur.accessed d).setSeg .cs (d.toSeg sel)).goTo off, base := t.base.accessed d } :=
  bind_then (loadSegFrom_run .cs sel d t hp hk) rfl

/-- What `need` does where its condition is known to hold. -/
theorem need_run {ok : Bool} {act : M Unit} {t : Tx} (h : ok = true) : need ok act t = .ok () t := by rw [h]; rfl

/-- What `need` does where its condition is known to fail. -/
theorem need_fail {ok : Bool} {act : M Unit} {t : Tx} (h : ok = false) : need ok act t = act t := by rw [h]; rfl

/-- A check that fails with an exception ends the computation. -/
theorem need_stop {β : Type} {ok : Bool} {act : M Unit} {f : Unit → M β} {t : Tx} {e : Stop} (h : ok = false)
    (ha : act t = .error e t) : (need ok act >>= f) t = .error e t := bind_run_error ((need_fail h).trans ha)

/-! ## Slots at the top of the stack -/

/-- The slots lie inside the stack segment. -/
theorem needStack_run {k n c : Nat} {t : Tx} (h : t.cur.holdsSlots k n c = true) : needStack k n c t = .ok () t :=
  bind_then (look_run _ t) (need_run h)

/-- They do not: the stack fault. -/
theorem needStack_fail {k n c : Nat} {t : Tx} (h : t.cur.holdsSlots k n c = false) :
    needStack k n c t = raiseSS0 t := bind_then (look_run _ t) (need_fail h)

/-- A slot that can be read. -/
theorem readStack_run {k n w : Nat} {t : Tx} (h : t.cur.canSlot k n = true) :
    readStack k n w t = .ok (t.cur.slot k n w) t := bind_then (look_run _ t) (memRead_run _ _ _ _ _ h)

/-- The base state after a segment register is loaded: only an accessed bit may be new. -/
def State.markedFor (b s : State) (r : Sreg) (sel : Word) : State :=
  if !s.pe then b
  else if isNull sel && r != .ss then b
  else
    match s.descFor sel with
    | some d => b.accessed d
    | none => b

/-- A data segment register is loaded in protected mode. -/
theorem loadDataSeg_run (r : Sreg) (sel : Word) (t : Tx) (hr : r ≠ .ss)
    (h : isNull sel = true ∨ ∃ d, t.cur.descFor sel = some d ∧ t.cur.dataFits sel d = true) (hpe : t.cur.pe = true) :
    loadDataSeg r sel t =
      .ok () { t with cur := t.cur.loadedSeg r sel, base := t.base.markedFor t.cur r sel } := by
  have hb : (r != Sreg.ss) = true := by simp [hr]
  unfold loadDataSeg State.loadedSeg State.markedFor
  simp only [hpe, Bool.not_true, Bool.false_eq_true, if_false, hb, Bool.and_true]
  cases hn : isNull sel
  · simp only [hn, Bool.false_eq_true, false_or] at h
    obtain ⟨d, hd, hf⟩ := h
    simp only [State.dataFits, Bool.and_eq_true] at hf
    obtain ⟨⟨h1, h2⟩, h3⟩ := hf
    obtain ⟨hp, hk⟩ := descFor_ram hd
    simp only [Bool.false_eq_true, if_false, hd]
    refine bind_then (fetchDescOr_run hd) ?_
    refine bind_then (look_run _ t) ?_
    refine bind_then (need_run (by unfold Desc.readable at h1; simp_all)) ?_
    refine bind_then (need_run h1) ?_
    refine bind_then (need_run h3) ?_
    refine bind_then (need_run h2) ?_
    exact loadSegFrom_run r sel d t hp hk
  · rfl

/-- SS is loaded in protected mode. -/
theorem loadSS_run (sel : Word) (d : Desc) (t : Tx) (hn : isNull sel = false) (hd : t.cur.descFor sel = some d)
    (hf : t.cur.ssFits sel d = true) :
    loadSS sel t =
      .ok () { t with cur := (t.cur.accessed d).setSeg .ss (d.toSeg sel), base := t.base.accessed d } := by
  simp only [State.ssFits, Bool.and_eq_true, beq_iff_eq] at hf
  obtain ⟨⟨⟨h1, h2⟩, h3⟩, h4⟩ := hf
  obtain ⟨hp, hk⟩ := descFor_ram hd
  unfold loadSS
  refine bind_then (need_run (by simp [hn])) ?_
  refine bind_then (fetchDescOr_run hd) ?_
  refine bind_then (look_run _ t) ?_
  refine bind_then (need_run (by simp [h1])) ?_
  refine bind_then (need_run h2) ?_
  refine bind_then (need_run (by simp [h3])) ?_
  refine bind_then (need_run h4) ?_
  exact loadSegFrom_run .ss sel d t hp hk

/-- A segment register other than CS is loaded, in either mode. -/
theorem loadSeg_run (r : Sreg) (sel : Word) (t : Tx) (h : t.cur.canLoadSeg r sel = true) :
    loadSeg r sel t = .ok () { t with cur := t.cur.loadedSeg r sel, base := t.base.markedFor t.cur r sel } := by
  refine bind_then (look_run _ t) ?_
  unfold State.canLoadSeg at h
  cases hpe : t.cur.pe
  · simp [State.loadedSeg, State.markedFor, hpe]
  · simp only [hpe, Bool.not_true, Bool.false_or] at h
    by_cases hss : r = .ss
    · subst hss
      simp only [if_true, Bool.and_eq_true, Bool.not_eq_true', Option.any_eq_true] at h
      obtain ⟨hn, d, hd, hf⟩ := h
      refine (loadSS_run sel d t hn hd hf).trans ?_
      simp [State.loadedSeg, State.markedFor, hpe, hd]
    · simp only [hss, if_false, Bool.or_eq_true, Option.any_eq_true] at h
      cases r <;> first | exact absurd rfl hss | exact loadDataSeg_run _ sel t hss h hpe

/-! ## Several pushes -/

/-- Plans of accesses that can be made. -/
theorem planAll_run (n : Nat) (offs : List Dword) (t : Tx)
    (h : ∀ off ∈ offs, t.cur.reachable .ss off n true = true) :
    (offs.mapM fun off => memPlan .ss off n true) t = .ok (offs.map fun off => t.cur.addrs .ss off n) t := by
  induction offs with
  | nil => rfl
  | cons o os ih =>
    rw [List.mapM_cons]
    refine bind_then (memPlan_run .ss o n true t (h o (by simp))) ?_
    exact bind_then (ih fun off ho => h off (by simp [ho])) rfl

/-- Writes to RAM, one after the other. -/
theorem writeAll_run (n : Nat) (cs : List (List Dword × Dword)) (t : Tx)
    (h : ∀ c ∈ cs, ∀ pa ∈ c.1, t.cur.kindAt pa.toNat = .ram) :
    (cs.forM fun c => writePhys c.1 (leBytes n c.2)) t =
      .ok () { t with cur := cs.foldl (fun u c => u.storeBytes c.1 (leBytes n c.2)) t.cur } := by
  induction cs generalizing t with
  | nil => rfl
  | cons c cs ih =>
    refine bind_then (writePhys_run c.1 _ t (h c (by simp))) ?_
    exact ih _ fun c' hc' pa hpa => by simpa using h c' (by simp [hc']) pa hpa

/-- Several pushes that can be made. -/
theorem pushAll_run (n : Nat) (vs : List Dword) (t : Tx) (h : t.cur.canPushAll n vs.length = true) :
    pushAll n vs t = .ok () { t with cur := t.cur.pushedAll n vs } := by
  simp only [State.canPushAll, List.all_eq_true] at h
  unfold pushAll
  refine bind_then (look_run _ t) ?_
  refine bind_then (planAll_run n _ t h) ?_
  have hz : (((t.cur.pushOffs n vs.length).map fun off => t.cur.addrs .ss off n).zip vs) =
      ((t.cur.pushOffs n vs.length).zip vs).map fun c => (t.cur.addrs .ss c.1 n, c.2) := by
    rw [List.zip_map_left]
    rfl
  rw [hz]
  refine bind_then (writeAll_run n _ t ?_) ?_
  · intro c hc pa hpa
    obtain ⟨c', hc', rfl⟩ := List.mem_map.mp hc
    exact ((reachable_iff ..).mp (h c'.1 (List.of_mem_zip hc').1)).2.2.2.2 pa hpa
  · simp only [upd_run, List.foldl_map, State.pushedAll]
    have hg : ∀ (cs : List (Dword × Dword)) (u : State),
        (cs.foldl (fun u c => u.storeBytes (t.cur.addrs .ss c.1 n) (leBytes n c.2)) u).gpr .esp = u.gpr .esp := by
      intro cs
      induction cs with
      | nil => intro u; rfl
      | cons c cs ih =>
        intro u
        rw [List.foldl_cons, ih]
        simp [State.gpr]
    rw [hg]

end Sys2Proof.Machine
end

