-- ==== Sys2Proof/Laws/Task.lean ====
section
/-! SUPPORT. What a task switch does when it runs, with paging off: it leaves the outgoing task, enters the new one, and
checks it. -/

namespace Sys2Proof.Machine

/-- A stretch of addresses inside a longer one. -/
theorem addrsFrom_slice (la : Dword) {m k n : Nat} (h : k + n ≤ m) :
    ((addrsFrom la m).drop k).take n = addrsFrom (la + BitVec.ofNat 32 k) n := by
  have h1 : addrsFrom la m = addrsFrom la k ++ addrsFrom (la + BitVec.ofNat 32 k) (m - k) := by
    rw [addrsFrom_append]
    congr 1
    omega
  have h2 : addrsFrom (la + BitVec.ofNat 32 k) (m - k) = addrsFrom (la + BitVec.ofNat 32 k) n ++
      addrsFrom (la + BitVec.ofNat 32 k + BitVec.ofNat 32 n) (m - k - n) := by
    rw [addrsFrom_append]
    congr 1
    omega
  rw [h1, List.drop_append_of_le_length (by simp), List.drop_of_length_le (by simp), List.nil_append, h2,
    List.take_append_of_le_length (by simp), List.take_of_length_le (by simp)]

/-- What `ramAt` says. -/
theorem ramAt_iff (s : State) (la : Dword) (n : Nat) :
    s.ramAt la n = true ↔ ∀ pa ∈ addrsFrom la n, s.kindAt pa.toNat = .ram := by
  simp [State.ramAt]

/-- Part of a stretch of RAM is RAM. -/
theorem ramAt_slice {s : State} {la : Dword} {m k n : Nat} (h : s.ramAt la m = true) (hk : k + n ≤ m) :
    ∀ pa ∈ addrsFrom (la + BitVec.ofNat 32 k) n, s.kindAt pa.toNat = .ram := by
  rw [← addrsFrom_slice la hk]
  exact fun pa hp => (ramAt_iff ..).mp h pa (List.mem_of_mem_drop (List.mem_of_mem_take hp))

/-- Storing leaves what stands at an address, and everything but memory. -/
@[simp] theorem putAt_kindAt (s : State) (la : Dword) (n : Nat) {w : Nat} (v : BitVec w) (x : Nat) :
    (s.putAt la n v).kindAt x = s.kindAt x := storeBytes_kindAt ..

/-- One access byte in RAM is changed. -/
theorem changeAccess_run {la : Dword} {f : Byte → Byte} {t : Tx} (h : t.cur.ramAt la 1 = true) :
    changeAccess (addrsFrom la 1) f t = .ok () { t with cur := t.cur.changeAt la f } := by
  have ha : addrsFrom la 1 = [la] := by simp [addrsFrom]
  have hr := (ramAt_iff ..).mp h
  refine bind_then (readPhys_run _ t hr) ?_
  rw [writePhys_run _ _ t hr, ha]
  simp [State.changeAt, State.putAt, ha, leBytes]

/-- No access byte is changed where there is none. -/
theorem changeAccess_nil (f : Byte → Byte) (t : Tx) : changeAccess [] f t = .ok () t := rfl

/-- How many bytes a value is written as. -/
@[simp] theorem leBytes_length (n : Nat) {w : Nat} (v : BitVec w) : (leBytes n v).length = n := by
  induction n generalizing v with
  | zero => rfl
  | succ n ih => simp [leBytes, ih]

/-- Fields of a TSS in RAM are written, one after the other. -/
theorem fieldsWrite_run {b : Dword} (fs : List (Nat × List Byte)) (hk : ∀ f ∈ fs, f.1 + f.2.length ≤ 104) {t : Tx}
    (h : t.cur.ramAt b 104 = true) :
    (fs.forM fun f => writePhys (((addrsFrom b 104).drop f.1).take f.2.length) f.2) t =
      .ok ()
        { t with
          cur := fs.foldl (fun u f => u.storeBytes (addrsFrom (b + BitVec.ofNat 32 f.1) f.2.length) f.2) t.cur } := by
  induction fs generalizing t with
  | nil => rfl
  | cons f fs ih =>
    have hf := hk f (by simp)
    refine bind_then (a := ())
      (t' := { t with cur := t.cur.storeBytes (addrsFrom (b + BitVec.ofNat 32 f.1) f.2.length) f.2 }) ?_ ?_
    · exact (congrArg (fun p => writePhys p f.2 t) (addrsFrom_slice b hf)).trans
        (writePhys_run _ _ t (ramAt_slice h hf))
    · exact ih (fun g hg => hk g (by simp [hg])) (by simpa [State.ramAt] using h)

/-- The outgoing task is saved in its TSS. -/
theorem saveTask_run (eip flags : Dword) {t : Tx} (h : t.cur.ramAt t.cur.tr.base 104 = true) :
    ((t.cur.tssFields eip flags).forM fun f =>
      writePhys (((addrsFrom t.cur.tr.base 104).drop f.1).take f.2.length) f.2) t =
      .ok () { t with cur := t.cur.taskSaved eip flags } := by
  rw [fieldsWrite_run _ (by simp [State.tssFields, leBytes_length]) h]
  simp only [State.tssFields, State.taskSaved, State.putAt, List.foldl_cons, List.foldl_nil, leBytes_length]

/-- Step F as Safety.lean writes it out. -/
theorem loadTask_eq (s : State) (k : SwitchKind) (t : List Byte) : s.loadTask k t = s.taskEntered k t := by
  have hn : ∀ v : Dword, putBit v 14 true = v ||| 0x4000 := fun _ => rfl
  unfold State.loadTask State.taskEntered State.switchCr3
  cases hp : s.pg <;> cases k <;> rfl

/-- Storing fields changes memory alone. -/
theorem fields_eq (n w : Nat) (b : Dword) (fs : List (Nat × BitVec w)) (s : State) :
    ∃ m, fs.foldl (fun u f => u.putAt (b + BitVec.ofNat 32 f.1) n f.2) s = { s with mem := m } := by
  induction fs generalizing s with
  | nil => exact ⟨s.mem, rfl⟩
  | cons f fs ih =>
    obtain ⟨m, hm⟩ := ih (s.putAt (b + BitVec.ofNat 32 f.1) n f.2)
    refine ⟨m, hm.trans ?_⟩
    unfold State.putAt
    rw [storeBytes_eq]

/-- Saving a task changes memory alone. -/
theorem taskSaved_eq (s : State) (eip flags : Dword) : ∃ m, s.taskSaved eip flags = { s with mem := m } := by
  unfold State.taskSaved
  simp only
  obtain ⟨m, hm⟩ := fields_eq 4 32 s.tr.base _ s
  rw [hm]
  exact fields_eq 2 16 s.tr.base _ _

/-- Saving a task leaves what stands at an address. -/
@[simp] theorem taskSaved_kindAt (s : State) (eip flags : Dword) (x : Nat) :
    (s.taskSaved eip flags).kindAt x = s.kindAt x := by
  obtain ⟨m, hm⟩ := taskSaved_eq s eip flags
  rw [hm]
  rfl
@[simp] theorem changeAt_kindAt (s : State) (la : Dword) (f : Byte → Byte) (x : Nat) :
    (s.changeAt la f).kindAt x = s.kindAt x := by simp [State.changeAt]

/-- A plan that may not be made, with paging off. -/
theorem planIf_run (made : Bool) (la : Dword) (n : Nat) (t : Tx) (h : t.cur.pg = false) :
    planIf made la n t = .ok (if made then addrsFrom la n else []) t := by
  cases made
  · rfl
  · exact linPlan_run _ _ _ _ t h

/-- The access byte that a switch may change, if it is in RAM. -/
theorem mayChange_run {made : Bool} {la : Dword} {f : Byte → Byte} {t : Tx}
    (h : made = true → t.cur.ramAt la 1 = true) :
    changeAccess (if made then addrsFrom la 1 else []) f t =
      .ok () { t with cur := if made then t.cur.changeAt la f else t.cur } := by
  cases made
  · exact changeAccess_nil f t
  · exact changeAccess_run (h rfl)

/-- The back link that a switch may write, if it is in RAM. -/
theorem mayLink_run {made : Bool} {la : Dword} {sel : Word} {t : Tx} (h : made = true → t.cur.ramAt la 2 = true) :
    writePhys (if made then addrsFrom la 2 else []) (leBytes 2 sel) t =
      .ok () { t with cur := if made then t.cur.putAt la 2 sel else t.cur } := by
  cases made
  · exact writePhys_run [] _ t (by simp)
  · exact writePhys_run _ _ t ((ramAt_iff ..).mp (h rfl))

/-- The end of step E: a change of registers, and the back link. -/
theorem linkTask_run {f : State → State} {out : Bool} {la : Dword} {sel : Word} {a : List Byte} {t : Tx}
    (h : (f t.cur).ramAt la 2 = true) :
    (do upd f; writePhys (if !out then addrsFrom la 2 else []) (leBytes 2 sel); pure a : M (List Byte)) t =
      .ok a { t with cur := if out then f t.cur else (f t.cur).putAt la 2 sel } :=
  bind_then (upd_run _ _) (bind_then (mayLink_run fun _ => h) (by cases out <;> rfl))

/-- The tests of the kind of a switch, as `leaveTask` and `taskLeft` put them. -/
theorem SwitchKind.left_iret (k : SwitchKind) (a b : State) :
    (if k = .iret then a else b) = if k != .iret then b else a := by cases k <;> rfl
theorem SwitchKind.left_chain (k : SwitchKind) (a b : State) :
    (if k == .call || k == .int then a else b) = if k.leaves then b else a := by cases k <;> rfl

/-- Steps A to E, past every check. -/
theorem leaveTask_run {nsel : Word} {d : Desc} {k : SwitchKind} {eip flags : Dword} {t : Tx}
    (h : t.cur.canSwitch d k = true) :
    leaveTask nsel d k eip flags t =
      .ok (t.cur.tssImage d.base) { t with cur := t.cur.taskLeft nsel d k eip flags } := by
  simp only [State.canSwitch, Bool.and_eq_true, Bool.not_eq_true', decide_eq_true_eq] at h
  obtain ⟨⟨⟨⟨⟨⟨hp, hl1, hl2⟩, hd⟩, ht⟩, ha⟩, ho⟩, hv⟩ := h
  unfold leaveTask
  refine bind_then (need_run (by simpa using hl1)) ?_
  refine bind_then (linRead_run _ _ _ t hp ((ramAt_iff ..).mp hd)) ?_
  refine bind_then (look_run _ t) ?_
  refine bind_then (linPlan_run _ _ _ _ t hp) ?_
  refine bind_then (planIf_run _ _ _ t hp) ?_
  refine bind_then (look_run _ t) ?_
  refine bind_then (planIf_run _ _ _ t hp) ?_
  refine bind_then (planIf_run _ _ _ t hp) ?_
  refine bind_then (need_run (by simpa using hl2)) ?_
  refine bind_then (look_run _ t) ?_
  refine bind_then (saveTask_run _ _ ht) ?_
  have hf : (if k = .iret then putBit flags 14 false else flags) =
      if k = .iret then flags &&& ~~~0x4000#32 else flags := by
    cases k <;> rfl
  unfold State.taskLeft
  rw [hf]
  simp only [SwitchKind.left_iret, SwitchKind.left_chain]
  have hu : ∀ x, (t.cur.taskSaved eip (if k = .iret then flags &&& ~~~0x4000#32 else flags)).kindAt x =
      t.cur.kindAt x :=
    fun x => taskSaved_kindAt ..
  generalize t.cur.taskSaved eip (if k = .iret then flags &&& ~~~0x4000#32 else flags) = u at hu ⊢
  have hr : ∀ la n, t.cur.ramAt la n = true → ∀ v : State, (∀ x, v.kindAt x = u.kindAt x) → v.ramAt la n = true := by
    intro la n h v hv
    exact (ramAt_iff ..).mpr fun pa hp => ((hv _).trans (hu _)).trans ((ramAt_iff ..).mp h pa hp)
  have hb : t.cur.ramAt d.base 2 = true :=
    (ramAt_iff ..).mpr (by simpa using ramAt_slice (k := 0) (n := 2) hd (by omega))
  have hm : ∀ (c : Bool) (v : State) (la : Dword) (f : Byte → Byte) (x : Nat),
      (if c then v.changeAt la f else v).kindAt x = v.kindAt x := by
    intro c v la f x
    cases c <;> simp
  have hold : k.leaves = true → t.cur.ramAt t.cur.oldAccess 1 = true := by
    intro hl
    cases k <;> simp_all [SwitchKind.leaves]
  refine bind_then (mayChange_run fun _ => hr _ _ ha u fun _ => rfl) ?_
  refine bind_then (mayChange_run fun hl => hr _ _ (hold hl) _ fun x => hm ..) ?_
  have hwk := hm (k != SwitchKind.iret) u (d.addr + 5) (· ||| 2)
  generalize (if k != SwitchKind.iret then u.changeAt (d.addr + 5) (· ||| 2) else u) = w at hwk ⊢
  have hzk := fun x => (hm k.leaves w t.cur.oldAccess (· &&& 0xFD) x).trans (hwk x)
  dsimp only at hzk ⊢
  rw [show t.cur.gdtr.base + (t.cur.tr.sel &&& 0xFFF8).setWidth 32 + 5 = t.cur.oldAccess from rfl]
  generalize (if k.leaves then w.changeAt t.cur.oldAccess (· &&& 0xFD) else w) = z at hzk ⊢
  refine linkTask_run ?_
  exact hr _ _ hb _ hzk

/-- A switch that gets past its commit point goes on in the new task, from where no fault goes back. -/
theorem taskSwitch_run {nsel : Word} {d : Desc} {k : SwitchKind} {eip flags : Dword} {err : Option Word} {t : Tx}
    (h : t.cur.canSwitch d k = true) :
    taskSwitch nsel d k eip flags err t =
      startTask (t.cur.tssImage d.base) err
        { t with
          cur := (t.cur.taskLeft nsel d k eip flags).taskEntered k (t.cur.tssImage d.base)
          base := (t.cur.taskLeft nsel d k eip flags).taskEntered k (t.cur.tssImage d.base) } := by
  have hv : (taskFlags k (t.cur.tssImage d.base)).getLsbD 17 = false := by
    simp only [State.canSwitch, Bool.and_eq_true, Bool.not_eq_true', decide_eq_true_eq] at h
    have hv := h.2
    cases k <;> simpa [taskFlags, SwitchKind.leaves, fixFlags, putBit, tssD] using hv
  unfold taskSwitch
  refine bind_then (leaveTask_run h) ?_
  refine bind_then (commit_run _) ?_
  refine bind_then (need_run (by simpa using hv)) ?_
  refine bind_then (upd_run _ _) ?_
  refine bind_then (commit_run _) ?_
  rw [loadTask_eq]

/-! ## The checks of the new task -/

/-- The computation `c` answers the check `v`: it leaves the state, or raises the exception with the working state as it
was. -/
def Answers (c : M Unit) (t : Tx) (v : TaskCheck) : Prop :=
  (∀ u, v = .ok u → ∃ b, c t = .ok () { t with cur := u, base := b }) ∧
    ∀ w vec code, v = .error (w, vec, code) → w = t.cur ∧
      (t.ext = false → (∀ q, w.tableRam q = true) → c t = .error (.raise { vec := vec, err := some code }) t)

/-- Checks that are made permanent one by one, and go on with `h`. -/
def Leads (c : M Unit) (f : State → TaskCheck) (h : M Unit) : Prop :=
  ∀ t : Tx, t.base = t.cur →
    (∀ v, f t.cur = .ok v → c t = h { t with cur := v, base := v }) ∧
    ∀ w vec code, f t.cur = .error (w, vec, code) → t.ext = false → (∀ q, w.tableRam q = true) →
      c t = .error (.raise { vec := vec, err := some code }) { t with cur := w, base := w }

theorem Answers.ok {c : M Unit} {t : Tx} {u b : State} (h : c t = .ok () { t with cur := u, base := b }) :
    Answers c t (.ok u) :=
  ⟨fun v hv => ⟨b, (by cases hv; exact h)⟩, fun w vec code hw => (by cases hw)⟩

theorem Answers.error {c : M Unit} {t : Tx} {vec : Byte} {code : Word}
    (h : t.ext = false → (∀ q, t.cur.tableRam q = true) → c t = .error (.raise { vec := vec, err := some code }) t) :
    Answers c t (.error (t.cur, vec, code)) :=
  ⟨fun v hv => (by cases hv), fun w vec code hw => (by cases hw; exact ⟨rfl, h⟩)⟩

/-- A check, made permanent, before others. -/
theorem Leads.next {c d h : M Unit} {f g : State → TaskCheck} (hc : ∀ t, Answers c t (f t.cur)) (hd : Leads d g h) :
    Leads (do c; commit; d) (fun s => (f s).bind g) h := by
  intro t ht
  obtain ⟨h1, h2⟩ := hc t
  show (∀ v, (f t.cur).bind g = .ok v → _) ∧ ∀ w vec code, (f t.cur).bind g = .error (w, vec, code) → _
  cases hf : f t.cur with
  | ok u =>
    obtain ⟨b, hb⟩ := h1 u hf
    have hr : (do c; commit; d : M Unit) t = d { t with cur := u, base := u } :=
      bind_then hb (bind_then (commit_run _) rfl)
    rw [hr]
    exact hd { t with cur := u, base := u } rfl
  | error e =>
    refine ⟨fun v hv => (by cases hv), fun w vec code hw he hq => ?_⟩
    obtain ⟨rfl, hr⟩ := h2 w vec code (hf.trans hw)
    refine (bind_run_error (hr he hq)).trans ?_
    obtain ⟨cur, base, ext⟩ := t
    simp only at ht
    rw [ht]

/-- Step G for the LDT. -/
theorem checkTaskLdt_answers (t : Tx) : Answers checkTaskLdt t t.cur.taskLdt := by
  simp only [State.taskLdt]
  cases hn : isNull t.cur.ldtr.sel
  · have hc : ∀ r, ((do
        need (!ti t.cur.ldtr.sel) (raiseTS t.cur.ldtr.sel)
        let d ← fetchDescOr t.cur.ldtr.sel (raiseTS t.cur.ldtr.sel)
        need (!d.s && d.typ == 2 && d.p) (raiseTS t.cur.ldtr.sel)
        upd fun s => { s with
          ldtr := { sel := t.cur.ldtr.sel, base := d.base, limit := d.limit32, valid := true } } : M Unit) t) = r →
        checkTaskLdt t = r := fun r h => bind_then (look_run _ t) (if_else (by simp [hn]) h)
    simp only [Bool.false_eq_true, if_false]
    cases hd : t.cur.descFor t.cur.ldtr.sel with
    | none =>
      refine .error fun he hq => hc _ ?_
      cases ht : ti t.cur.ldtr.sel
      · exact bind_then (need_run rfl) (bind_run_error ((fetchDescOr_none (hq _) hd).trans (raiseSel_run _ _ he)))
      · exact need_stop rfl (raiseSel_run _ _ he)
    | some d =>
      simp only
      cases ht : ti t.cur.ldtr.sel
      · simp only [Bool.not_false, Bool.true_and]
        simp only [ht, Bool.not_false] at hc
        cases hf : !d.s && d.typ == 2 && d.p
        · exact .error fun he _ => hc _ (bind_then (need_run rfl)
            (bind_then (fetchDescOr_run hd) (need_stop hf (raiseSel_run _ _ he))))
        · exact .ok (hc _ (bind_then (need_run rfl)
            (bind_then (fetchDescOr_run hd) (bind_then (need_run hf) (upd_run _ _)))))
      · simp only [Bool.not_true, Bool.false_and, Bool.false_eq_true, if_false]
        simp only [ht, Bool.not_true] at hc
        exact .error fun he _ => hc _ (need_stop rfl (raiseSel_run _ _ he))
  · exact .ok (b := t.base) (bind_then (look_run _ t) (if_then hn rfl))

/-- A segment register that is not null: the descriptor is there, the checks hold, it is present, and it is loaded. -/
theorem segCheck_answers {r : Sreg} {fault : Byte} {body : Desc → M Unit} {denied : Desc → Bool} {x : Word} {t : Tx}
    (h : ∀ d, body d t =
      if denied d then (raiseTS x : M Unit) t else if !d.p then (raiseSel fault x : M Unit) t
      else loadSegFrom r x d t) :
    Answers (do let d ← fetchDescOr x (raiseTS x); body d) t
      (match t.cur.descFor x with
      | none => .error (t.cur, 10, selCode x)
      | some d =>
        if denied d then .error (t.cur, 10, selCode x)
        else if !d.p then .error (t.cur, fault, selCode x)
        else .ok ((t.cur.accessed d).setSeg r (d.toSeg x))) := by
  cases hd : t.cur.descFor x with
  | none => exact .error fun he hq => bind_run_error ((fetchDescOr_none (hq _) hd).trans (raiseSel_run _ _ he))
  | some d =>
    have hb := h d
    simp only
    cases hx : denied d
    · cases hp : d.p
      · simp only [hx, hp, Bool.not_false, Bool.false_eq_true, if_true, if_false] at hb ⊢
        exact .error fun he _ => bind_then (fetchDescOr_run hd) (hb.trans (raiseSel_run _ _ he))
      · simp only [hx, hp, Bool.not_true, Bool.false_eq_true, if_false] at hb ⊢
        obtain ⟨hg, hk⟩ := descFor_ram hd
        exact .ok (bind_then (fetchDescOr_run hd) (hb.trans (loadSegFrom_run r x d t hg hk)))
    · simp only [hx, if_true] at hb ⊢
      exact .error fun he _ => bind_then (fetchDescOr_run hd) (hb.trans (raiseSel_run _ _ he))

/-- Two checks that raise the same exception. -/
theorem need_both {a b : Bool} {x : Word} {g : M Unit} {t : Tx} {r : EStateM.Result Stop Tx Unit}
    (h : (do need (a && b) (raiseTS x); g : M Unit) t = r) :
    (do need a (raiseTS x); need b (raiseTS x); g : M Unit) t = r := by
  subst h
  cases a <;> rfl

/-- A check, then that of presence, as alternatives. -/
theorem need_present {a denied p : Bool} {v : Byte} {x : Word} {g : M Unit} {t : Tx} (h : a = !denied) :
    (do need a (raiseTS x); need p (raiseSel v x); g : M Unit) t =
      if denied then (raiseTS x : M Unit) t else if !p then (raiseSel v x : M Unit) t else g t := by
  subst h
  cases denied <;> cases p <;> rfl

/-- The checks that a segment register of the new task shares: null, then the chain of `segCheck_answers`. -/
theorem taskSeg_answers {r : Sreg} {c : M Unit} {body : Desc → M Unit} {t : Tx}
    (hnull : isNull (t.cur.seg r).sel = true →
      if r = .cs ∨ r = .ss then c t = (raiseTS (t.cur.seg r).sel : M Unit) t else c t = .ok () t)
    (hc : isNull (t.cur.seg r).sel = false →
      c t = (do let d ← fetchDescOr (t.cur.seg r).sel (raiseTS (t.cur.seg r).sel); body d : M Unit) t)
    (h : ∀ d, body d t =
      if t.cur.taskDenied r (t.cur.seg r).sel d then (raiseTS (t.cur.seg r).sel : M Unit) t
      else if !d.p then (raiseSel (if r = .ss then 12 else 11) (t.cur.seg r).sel : M Unit) t
      else loadSegFrom r (t.cur.seg r).sel d t) :
    Answers c t (t.cur.taskSeg r) := by
  simp only [State.taskSeg]
  cases hn : isNull (t.cur.seg r).sel
  · unfold Answers
    rw [hc hn]
    exact segCheck_answers h
  · have h' := hnull hn
    split at h'
    · rename_i hr
      simp only [hr, if_true]
      exact .error fun he _ => h'.trans (raiseSel_run _ _ he)
    · rename_i hr
      simp only [hr, if_true, if_false]
      exact .ok h'

/-- An order check and its failure. -/
theorem le_as_not_lt (a b : Nat) : decide (a ≤ b) = !decide (b < a) := by
  by_cases h : a ≤ b
  · simp [h, Nat.not_lt.mpr h]
  · simp [h, Nat.not_le.mp h]

/-- Step G for CS. -/
theorem checkTaskCS_answers (t : Tx) : Answers checkTaskCS t (t.cur.taskSeg .cs) := by
  refine taskSeg_answers (body := fun d => do
        need d.isCode (raiseTS t.cur.segs.cs.sel)
        need (d.conforming || d.dpl == rpl t.cur.segs.cs.sel) (raiseTS t.cur.segs.cs.sel)
        need (!d.conforming || decide (d.dpl.toNat ≤ (rpl t.cur.segs.cs.sel).toNat)) (raiseTS t.cur.segs.cs.sel)
        need d.p (raiseNP t.cur.segs.cs.sel)
        loadSegFrom .cs t.cur.segs.cs.sel d) (fun hn => ?_) (fun hn => ?_) fun d => ?_
  · exact bind_then (look_run _ t) (need_stop (congrArg not hn) rfl)
  · exact bind_then (look_run _ t) (bind_then (need_run (congrArg not hn)) rfl)
  · refine need_both (need_both (need_present ?_))
    change _ = !(!d.isCode || returnDenied t.cur.segs.cs.sel d)
    unfold returnDenied
    have hl := le_as_not_lt
    cases d.isCode <;> cases d.conforming <;> simp [bne, hl]

/-- Step G for SS. -/
theorem checkTaskSS_answers (t : Tx) : Answers checkTaskSS t (t.cur.taskSeg .ss) := by
  refine taskSeg_answers (body := fun d => do
        need (rpl t.cur.segs.ss.sel == t.cur.cpl) (raiseTS t.cur.segs.ss.sel)
        need d.writableData (raiseTS t.cur.segs.ss.sel)
        need (d.dpl == t.cur.cpl) (raiseTS t.cur.segs.ss.sel)
        need d.p (raiseSS t.cur.segs.ss.sel)
        loadSegFrom .ss t.cur.segs.ss.sel d) (fun hn => ?_) (fun hn => ?_) fun d => ?_
  · exact bind_then (look_run _ t) (bind_then (look_run _ t) (need_stop (congrArg not hn) rfl))
  · exact bind_then (look_run _ t) (bind_then (look_run _ t) (bind_then (need_run (congrArg not hn)) rfl))
  · refine need_both (need_both (need_present ?_))
    change _ = !(rpl t.cur.segs.ss.sel != t.cur.cpl || !d.writableData || d.dpl != t.cur.cpl)
    simp [bne]

/-- Step G for a data segment register. -/
theorem checkTaskData_answers {r : Sreg} (h1 : r ≠ .cs) (h2 : r ≠ .ss) (t : Tx) :
    Answers (checkTaskData r) t (t.cur.taskSeg r) := by
  refine taskSeg_answers (body := fun d => do
        need d.readable (raiseTS (t.cur.seg r).sel)
        need (d.isCode && d.conforming ||
          decide (t.cur.cpl.toNat ≤ d.dpl.toNat ∧ (rpl (t.cur.seg r).sel).toNat ≤ d.dpl.toNat))
          (raiseTS (t.cur.seg r).sel)
        need d.p (raiseNP (t.cur.seg r).sel)
        loadSegFrom r (t.cur.seg r).sel d) (fun hn => ?_) (fun hn => ?_) fun d => ?_
  · rw [if_neg (by simp [h1, h2])]
    exact bind_then (look_run _ t) (bind_then (look_run _ t) (if_then hn rfl))
  · exact bind_then (look_run _ t) (bind_then (look_run _ t) (if_else (by simp [hn]) rfl))
  · rw [if_neg h2]
    refine need_both (need_present ?_)
    have hd : t.cur.taskDenied r (t.cur.seg r).sel d = (!d.readable || t.cur.dataDenied (t.cur.seg r).sel d) := by
      cases r <;> first | rfl | exact absurd rfl h1 | exact absurd rfl h2
    rw [hd, State.dataDenied]
    have hl := le_as_not_lt
    cases d.readable <;> cases d.isCode && d.conforming <;> simp [hl]

/-- Step H and what follows it. -/
theorem taskEip_leads (h : M Unit) : Leads (do
    need (← look fun s => decide (s.eip.toNat ≤ s.segs.cs.limit.toNat)) raiseGP0
    h) State.taskEip h := by
  intro t ht
  obtain ⟨cur, base, ext⟩ := t
  simp only at ht
  subst ht
  simp only [State.taskEip]
  cases hi : base.inCode base.eip
  · refine ⟨fun v hv => (by cases hv), fun w vec code hw he _ => ?_⟩
    cases hw
    refine bind_then (look_run _ _) (need_stop (show decide _ = false from hi) ?_)
    change ext = false at he
    simp [he, raiseGP0, raiseCode, bitVal]
  · refine ⟨fun v hv => ?_, fun w vec code hw => (by cases hw)⟩
    cases hv
    exact bind_then (look_run _ _) (bind_then (need_run hi) rfl)

/-- What follows the checks: the error code is pushed, and the T bit makes the debug trap pending. -/
def afterChecks (img : List Byte) (err : Option Word) : M Unit := do
  pushErr err
  if (tssW img 0x64).getLsbD 0 then
    upd fun s => { s with trapPending := true, dr6 := putBit s.dr6 15 true }

/-- Steps G to I, check by check. -/
theorem startTask_leads (img : List Byte) (err : Option Word) :
    Leads (startTask img err) State.taskChecked (afterChecks img err) := by
  have hb : ∀ (x : TaskCheck) (f g : State → TaskCheck), (x.bind f).bind g = x.bind fun s => (f s).bind g := by
    intro x f g
    cases x <;> rfl
  have hx : State.taskChecked = fun s => s.taskLdt.bind fun s => (State.taskSeg .cs s).bind fun s =>
      (State.taskSeg .ss s).bind fun s => (State.taskSeg .ds s).bind fun s => (State.taskSeg .es s).bind fun s =>
      (State.taskSeg .fs s).bind fun s => (State.taskSeg .gs s).bind State.taskEip := by
    funext s
    simp only [State.taskChecked, hb]
  rw [hx]
  refine .next checkTaskLdt_answers (.next checkTaskCS_answers (.next checkTaskSS_answers ?_))
  have hd : ∀ r, r ≠ .cs → r ≠ .ss → ∀ t, Answers (checkTaskData r) t (t.cur.taskSeg r) :=
    fun r => checkTaskData_answers
  refine .next (hd .ds (by decide) (by decide)) (.next (hd .es (by decide) (by decide)) ?_)
  refine .next (hd .fs (by decide) (by decide)) (.next (hd .gs (by decide) (by decide)) ?_)
  exact taskEip_leads _

/-- A selector with an open upper half. -/
theorem anySel_run (sel : Word) (t : Tx) :
    anySel sel t = .ok ((t.cur.any 0).setWidth 16 ++ sel) { t with cur := t.cur.drawn 1, base := t.base.drawn 1 } :=
  bind_then (anyBits_run 16 t) rfl

/-- The new task is entered: what is left of the switch on the way to its first instruction. -/
theorem afterChecks_run {img : List Byte} {err : Option Word} {t : Tx} (h : t.cur.canErr err = true) :
    ∃ b, afterChecks img err t = .ok () { t with cur := (t.cur.withErr err).taskTrap img, base := b } := by
  have hp : ∃ b, pushErr err t = .ok () { t with cur := t.cur.withErr err, base := b } := by
    cases err with
    | none => exact ⟨t.base, rfl⟩
    | some e =>
      refine ⟨t.base.drawn 1, bind_then (a := (t.cur.any 0).setWidth 16 ++ e) (anySel_run e t) ?_⟩
      exact push_run 4 _ _ h
  obtain ⟨b, hb⟩ := hp
  refine ⟨b, bind_then hb ?_⟩
  unfold State.taskTrap
  cases hb : (leVal 16 ((img.drop 0x64).take 2) : Word).getLsbD 0
  · exact if_else (by simpa [tssW] using hb) rfl
  · exact if_then hb rfl

/-- A switch to a task that passes its checks. -/
theorem taskSwitch_ok {nsel : Word} {d : Desc} {k : SwitchKind} {eip flags : Dword} {err : Option Word} {t : Tx}
    {v : State}
    (h : t.cur.canSwitch d k = true) (hv : t.cur.switchTo nsel d k eip flags = .ok v) (he : v.canErr err = true) :
    ∃ b, taskSwitch nsel d k eip flags err t =
      .ok () { t with cur := (v.withErr err).taskTrap (t.cur.tssImage d.base), base := b } := by
  unfold State.switchTo at hv
  rw [taskSwitch_run h]
  generalize (t.cur.taskLeft nsel d k eip flags).taskEntered k (t.cur.tssImage d.base) = u at hv ⊢
  have hs := (startTask_leads (t.cur.tssImage d.base) err { cur := u, base := u, ext := t.ext } rfl).1 v hv
  rw [hs]
  exact afterChecks_run (t := { cur := v, base := v, ext := t.ext }) he

/-- A switch to a task that fails a check: the exception is raised in the new task. -/
theorem taskSwitch_error {nsel : Word} {d : Desc} {k : SwitchKind} {eip flags : Dword} {err : Option Word} {t : Tx}
    {w : State} {vec : Byte} {code : Word} (h : t.cur.canSwitch d k = true)
    (hw : t.cur.switchTo nsel d k eip flags = .error (w, vec, code)) (he : t.ext = false)
    (hq : ∀ q, w.tableRam q = true) :
    taskSwitch nsel d k eip flags err t =
      .error (.raise { vec := vec, err := some code }) { t with cur := w, base := w } := by
  unfold State.switchTo at hw
  rw [taskSwitch_run h]
  generalize (t.cur.taskLeft nsel d k eip flags).taskEntered k (t.cur.tssImage d.base) = u at hw ⊢
  exact (startTask_leads (t.cur.tssImage d.base) err { cur := u, base := u, ext := t.ext } rfl).2 w vec code hw he hq

end Sys2Proof.Machine
end

