-- ==== Sys2Proof/Laws/Event.lean ====
section
/-! SUPPORT. What a boundary does with an event, how the gate of a vector and the frame of a handler are read and built,
what delivery on an inner stack and through a task gate does, and what a TLB lookup answers where one entry matches. -/

namespace Sys2Proof.Machine

/-! ## Boundaries -/

/-- A step with an event to take takes it, without the shadows and with the trap no longer pending where it could be taken. -/
theorem step_event {s : State} {e : Event} (hr : s.resetPin = false) (hp : s.pendingEvent = some e) :
    step s = takeEvent e
      { s with inhibitSS := false, inhibitSTI := false, trapPending := s.trapPending && !s.inhibitSS } := by
  have h0 : s.run ≠ .shutdown := fun h => by simp [State.pendingEvent, h] at hp
  unfold step boundary
  rw [if_neg (by simp [hr]), if_neg h0]
  simp only [hp]
  rfl

/-- Taking an event whose acknowledge and whose delivery succeed. -/
theorem takeEvent_run {e : Event} {s : State} {t u : Tx}
    (ha : acknowledge e { cur := s, base := s, ext := e.kind.ext } = .ok () t)
    (hd : deliver e.vec e.kind e.err s.eip t = .ok () u) :
    takeEvent e s = .next { u.cur with ctx := Ctx.empty } := by
  unfold takeEvent deliverChain
  have h : (do acknowledge e; deliver e.vec e.kind e.err s.eip : M Unit) { cur := s, base := s, ext := e.kind.ext } = _ :=
    bind_then ha hd
  rw [h]

/-- The frame of a handler, its selector and error-code slots with open upper halves. -/
theorem handlerFrame_run (flags eip : Dword) (err : Option Word) (t : Tx) :
    handlerFrame flags t.cur.segs.cs.sel eip err t =
      .ok (t.cur.frame 0 flags eip err)
        { t with cur := t.cur.drawn (1 + errCount err), base := t.base.drawn (1 + errCount err) } := by
  unfold handlerFrame
  refine bind_then (anySel_run _ t) ?_
  cases err with
  | none => rfl
  | some e => exact bind_then (anySel_run e _) rfl

/-- The gate of a vector, read. -/
theorem idtGate_run {v : Byte} {g : Desc} {t : Tx} (h : t.cur.gateFor v = some g) : idtGate v t = .ok g t := by
  simp only [State.gateFor] at h
  split at h
  · rename_i hc
    simp only [Bool.and_eq_true, Bool.not_eq_true', decide_eq_true_eq, List.all_eq_true, beq_iff_eq] at hc
    obtain rfl := Option.some.inj h
    unfold idtGate
    refine bind_then (look_run _ t) (bind_then (need_run (by simpa using hc.1.1)) ?_)
    exact bind_then (linRead_run _ _ _ t hc.1.2 hc.2) rfl
  · cases h

/-- Setting an accessed bit moves no region. -/
@[simp] theorem accessed_kindAt (s : State) (d : Desc) (pa : Nat) : (s.accessed d).kindAt pa = s.kindAt pa := by
  unfold State.accessed State.storeByte
  split
  · rfl
  · split <;> rfl

/-! ## Inner stacks -/

/-- The inner stack that the TSS gives, past its checks. -/
theorem innerStack_run {lvl : BitVec 2} {count : Nat} {sd : Desc} {t : Tx}
    (hd : t.cur.descFor (t.cur.tssStackAt lvl).1 = some sd) (h : t.cur.innerFits lvl sd count = true) :
    innerStack lvl count t =
      .ok { sel := (t.cur.tssStackAt lvl).1, esp := (t.cur.tssStackAt lvl).2, desc := sd } t := by
  simp only [State.innerFits, Bool.and_eq_true, decide_eq_true_eq] at h
  obtain ⟨⟨⟨⟨⟨⟨⟨hr, hl⟩, hn⟩, h1⟩, h2⟩, h3⟩, h4⟩, h5⟩ := h
  simp only [State.tssRam, Bool.and_eq_true, Bool.not_eq_true'] at hr
  have hk : ∀ off n, off + n ≤ t.cur.tr.limit.toNat + 1 →
      ∀ pa ∈ addrsFrom (t.cur.tr.base + BitVec.ofNat 32 off) n, t.cur.kindAt pa.toNat = .ram :=
    fun off n ho => ramAt_slice hr.2 ho
  have hs : tssStack lvl t = .ok (t.cur.tssStackAt lvl) t := by
    unfold tssStack
    refine bind_then (look_run _ t) (bind_then (need_run (by simpa using hl)) ?_)
    refine bind_then (linRead_run _ _ _ t hr.1 (hk _ _ (by omega))) ?_
    exact bind_then (linRead_run _ _ _ t hr.1 (hk _ _ (by omega))) rfl
  unfold innerStack
  refine bind_then hs (bind_then (need_run hn) (bind_then (fetchDescOr_run hd) ?_))
  refine bind_then (need_run h1) (bind_then (need_run h2) (bind_then (need_run h3) ?_))
  exact bind_then (need_run h4) (bind_then (need_run h5) rfl)

/-- The inner stack is entered: only an accessed bit is permanent. -/
theorem enterStack_run {lvl : BitVec 2} {k : InnerStack} {t : Tx} (hp : t.cur.pg = false)
    (hk : t.cur.kindAt (k.desc.addr + 5).toNat = .ram) :
    enterStack lvl k t =
      .ok () { t with cur := t.cur.onInner lvl k.sel k.desc k.esp, base := t.base.accessed k.desc } :=
  bind_then (upd_run _ _) (bind_then (loadSegFrom_run _ _ _ _ hp hk) (upd_run _ _))

/-- Setting an accessed bit changes memory alone. -/
theorem accessed_eq (s : State) (d : Desc) : s.accessed d = { s with mem := (s.accessed d).mem } := by
  unfold State.accessed
  split
  · rfl
  · exact storeByte_eq ..

/-- Moving the stack pointer changes the general registers alone. -/
theorem setSp_eq (s : State) (v : Dword) : ∃ g, s.setSp v = { s with gprs := g } := by
  unfold State.setSp
  cases s.stack32
  · exact ⟨_, rfl⟩
  · exact ⟨_, rfl⟩

/-- Pushes change memory and the general registers alone. -/
theorem pushedAll_eq (s : State) (n : Nat) (vs : List Dword) :
    ∃ m g, s.pushedAll n vs = { s with mem := m, gprs := g } := by
  have hf : ∀ (cs : List (Dword × Dword)) (t : State),
      ∃ m, cs.foldl (fun t c => t.storeBytes (s.addrs .ss c.1 n) (leBytes n c.2)) t = { t with mem := m } := by
    intro cs
    induction cs with
    | nil => exact fun t => ⟨t.mem, rfl⟩
    | cons c cs ih =>
      intro t
      obtain ⟨m, hm⟩ := ih (t.storeBytes (s.addrs .ss c.1 n) (leBytes n c.2))
      refine ⟨m, hm.trans ?_⟩
      rw [storeBytes_eq]
  obtain ⟨m, hm⟩ := hf ((s.pushOffs n vs.length).zip vs) s
  obtain ⟨g, hg⟩ := setSp_eq { s with mem := m } (s.gpr .esp - BitVec.ofNat 32 (n * vs.length))
  exact ⟨m, g, (congrArg (State.setSp · _) hm).trans hg⟩

/-- Entering an inner stack and pushing on it change memory, the general registers, SS and the level alone. -/
theorem onInner_eq (s : State) (lvl : BitVec 2) (sel : Word) (sd : Desc) (esp : Dword) (n : Nat) (vs : List Dword) :
    ∃ m g ss, (s.onInner lvl sel sd esp).pushedAll n vs =
      { s with mem := m, gprs := g, cpl := lvl, segs := { s.segs with ss := ss } } := by
  obtain ⟨m, g, h⟩ := pushedAll_eq (s.onInner lvl sel sd esp) n vs
  obtain ⟨g', h'⟩ := setSp_eq ((({ s with cpl := lvl } : State).accessed sd).setSeg .ss (sd.toSeg sel)) esp
  rw [accessed_eq] at h'
  refine ⟨m, g, sd.toSeg sel, h.trans ?_⟩
  unfold State.onInner
  rw [accessed_eq, h']
  rfl

/-- Delivery on an inner stack, of any kind of event. -/
theorem deliver_inner {v : Byte} {kind : EventKind} {err : Option Word} {eip : Dword} {g d sd : Desc} {t : Tx}
    (h : t.cur.entersInner v kind err g d sd) :
    ∃ b, deliver v kind err eip t =
      .ok () { t with cur := t.cur.enteredInner g d sd (flagsImage t.cur.eflags v kind) eip err, base := b } := by
  obtain ⟨hpe, hg, hgf, hd, hdf, hsd, hin, hpush⟩ := h
  simp only [State.gateFits, Bool.and_eq_true, Bool.not_eq_true'] at hgf
  obtain ⟨⟨⟨⟨g1, g2⟩, g3⟩, g4⟩, g5⟩ := hgf
  simp only [Bool.and_eq_true, decide_eq_true_eq, Bool.not_eq_true'] at hdf
  obtain ⟨⟨⟨d1, d2⟩, d3⟩, d4, d5⟩ := hdf
  have ht : g.typ = 14 ∨ g.typ = 15 := by simpa using g2
  obtain ⟨hp, hk⟩ := descFor_ram hd
  obtain ⟨-, hks⟩ := descFor_ram hsd
  generalize hfl : flagsImage t.cur.eflags v kind = flags
  let vs := ((t.cur.any 0).setWidth 16 ++ t.cur.segs.ss.sel) :: t.cur.gpr .esp :: t.cur.frame 1 flags eip err
  let u := (t.cur.drawn (2 + errCount err)).onInner d.dpl (t.cur.tssStackAt d.dpl).1 sd (t.cur.tssStackAt d.dpl).2
  let b := ((t.base.drawn (2 + errCount err)).accessed sd).accessed d
  have hdr : ∀ s : State, (s.drawn 1).drawn (1 + errCount err) = s.drawn (2 + errCount err) := fun s => by
    rw [drawn_drawn, ← Nat.add_assoc]
  obtain ⟨m, r, ss, hu⟩ := onInner_eq (t.cur.drawn (2 + errCount err)) d.dpl (t.cur.tssStackAt d.dpl).1 sd
    (t.cur.tssStackAt d.dpl).2 4 vs
  have hi : enterInner g d flags eip err t =
      .ok () { t with cur := (u.pushedAll 4 vs).enterCode g.gateSel d.dpl d g.gateOff, base := b } := by
    unfold enterInner
    refine bind_then (innerStack_run hsd hin) (bind_then (need_run (by simpa using d5)) ?_)
    refine bind_then (look_run _ t) (bind_then (look_run _ t) (bind_then (look_run _ t) (bind_then (anySel_run _ t) ?_)))
    refine bind_then (handlerFrame_run flags eip err { t with cur := t.cur.drawn 1, base := t.base.drawn 1 }) ?_
    refine bind_then (enterStack_run hp hks) ?_
    simp only [hdr]
    have hl : vs.length = 5 + errCount err := by cases err <;> rfl
    refine bind_then (pushAll_run 4 vs _ (by rw [hl]; exact hpush)) ?_
    exact loadCS_run _ _ _ _ ((congrArg State.pg hu).trans hp) ((congrArg (State.kindAt · _) hu).trans hk)
  refine ⟨b, bind_then (look_run _ t) (if_then hpe ?_)⟩
  unfold deliverProt
  refine bind_then (idtGate_run hg) (bind_then (need_run (by rcases ht with h | h <;> simp [g1, h])) ?_)
  refine bind_then (need_run (by rcases ht with h | h <;> simp [h])) (bind_then (look_run _ t) ?_)
  refine bind_then (need_run g4) (bind_then (need_run g3) (bind_then (look_run _ t) ?_))
  refine if_else (by rcases ht with h | h <;> simp [h]) ?_
  refine bind_then (need_run (by simpa using g5)) (bind_then (fetchDescOr_run hd) (bind_then (look_run _ t) ?_))
  refine bind_then (need_run d1) (bind_then (need_run (by simpa using d4.le)) (bind_then (need_run d2) ?_))
  rw [hfl]
  refine if_then ?_ (bind_then hi ((upd_run _ _).trans ?_))
  · rw [d3, decide_eq_true d4]
    rfl
  have he : ((u.pushedAll 4 vs).enterCode g.gateSel d.dpl d g.gateOff).eflags = t.cur.eflags := by
    have ha : ((u.pushedAll 4 vs).accessed d).eflags = _ := congrArg State.eflags (accessed_eq (u.pushedAll 4 vs) d)
    have hs : (u.pushedAll 4 vs).eflags = _ := congrArg State.eflags hu
    exact ha.trans hs
  rw [he]
  rfl

/-- Delivery through a task gate is the switch to the task that the gate names. -/
theorem deliver_switch {v : Byte} {kind : EventKind} {err : Option Word} {eip : Dword} {g d : Desc} {t : Tx}
    {r : EStateM.Result Stop Tx Unit} (h : t.cur.entersTask v kind g d)
    (hr : taskSwitch g.gateSel d .int eip (flagsImage t.cur.eflags v kind) err t = r) :
    deliver v kind err eip t = r := by
  obtain ⟨hpe, hg, hgf, hd, hf, -⟩ := h
  simp only [Bool.and_eq_true, Bool.not_eq_true', beq_iff_eq] at hgf
  obtain ⟨⟨⟨⟨⟨g1, g2⟩, g3⟩, g4⟩, g5⟩, g6⟩ := hgf
  simp only [Desc.isFreeTss, Bool.and_eq_true, Bool.not_eq_true', beq_iff_eq] at hf
  obtain ⟨⟨d1, d2⟩, d3⟩ := hf
  refine bind_then (look_run _ t) (if_then hpe ?_)
  unfold deliverProt
  refine bind_then (idtGate_run hg) (bind_then (need_run (by simp [g1, g2])) ?_)
  refine bind_then (need_run (by simp [g2])) (bind_then (look_run _ t) ?_)
  refine bind_then (need_run g4) (bind_then (need_run g3) (bind_then (look_run _ t) ?_))
  refine if_then g2 (bind_then (need_run (by simpa using g5)) (bind_then (need_run (by simpa using g6)) ?_))
  refine bind_then (fetchDescOr_run hd) (bind_then (need_run (by simp [d2])) ?_)
  refine bind_then (need_run (by simp [d1, d2])) (bind_then (need_run (by simp [d2])) ?_)
  exact bind_then (need_run d3) hr

/-! ## TLB hits -/

/-- The answer of the TLB where one entry matches: it vanishes or stays, as an open value decides. -/
theorem tlbLookup_hit {t : Tx} {la : Dword} {way : Nat} (hd : t.cur.tlbDup.contains (tlbTag la) = false)
    (hh : t.cur.tlbHits la = [way]) :
    tlbLookup la t =
      if (t.cur.any 0).getLsbD 0 then
        .ok none { t with
          cur := (t.cur.drawn 1).setTlbEntry la way { t.cur.tlbEntry la way with v := false }
          base := (t.base.drawn 1).setTlbEntry la way { t.base.tlbEntry la way with v := false } }
      else .ok (some (t.cur.tlbEntry la way)) { t with cur := t.cur.drawn 1, base := t.base.drawn 1 } := by
  have hd' : ¬t.cur.tlbDup.contains (tlbTag la) = true := by rw [hd]; exact Bool.false_ne_true
  unfold tlbLookup
  refine bind_then (look_run _ _) (if_else hd' ?_)
  refine bind_then (look_run _ _) ?_
  simp only [hh]
  refine bind_then (a := (t.cur.any 0).getLsbD 0)
    (t' := { t with cur := t.cur.drawn 1, base := t.base.drawn 1 }) (bind_then (anyD_run t) rfl) ?_
  by_cases h : (t.cur.any 0).getLsbD 0 = true
  · rw [if_pos h, if_pos h]
    rfl
  · rw [if_neg h, if_neg h]
    rfl

end Sys2Proof.Machine
end

