-- ==== Sys2Proof/Laws/Keeps.lean ====
section
/-! SUPPORT. How an invariant of the state is carried through a computation, an instruction, the delivery of an event and a
step: one lemma per way of putting computations together. -/

namespace Sys2Proof.Machine

variable {α β : Type} {I : State → Prop}

/-- A computation keeps `I` of the working state and of the state a fault goes back to, however it ends. -/
def Keeps (I : State → Prop) (m : M α) : Prop :=
  ∀ t : Tx, I t.cur → I t.base →
    match m t with
    | .ok _ u => I u.cur ∧ I u.base
    | .error _ u => I u.cur ∧ I u.base

/-- A computation that changes nothing. -/
theorem Keeps.pure (a : α) : Keeps I (pure a : M α) := fun _ hc hb => ⟨hc, hb⟩

/-- Reading the state. -/
theorem Keeps.look (f : State → α) : Keeps I (look f) := fun _ hc hb => ⟨hc, hb⟩

/-- Changing the working state. -/
theorem Keeps.upd {f : State → State} (h : ∀ s, I s → I (f s)) : Keeps I (upd f) := fun _ hc hb => ⟨h _ hc, hb⟩

/-- Changing both states. -/
theorem Keeps.updBoth {f : State → State} (h : ∀ s, I s → I (f s)) : Keeps I (updBoth f) :=
  fun _ hc hb => ⟨h _ hc, h _ hb⟩

/-- Making changes permanent. -/
theorem Keeps.commit : Keeps I commit := fun _ hc _ => ⟨hc, hc⟩

/-- Raising an exception. -/
theorem Keeps.raise (v : Byte) (e : Option Word) : Keeps I (raise v e : M α) := fun _ hc hb => ⟨hc, hb⟩

/-- Raising an exception with an error code. -/
theorem Keeps.raiseCode (v : Byte) (c : Word) : Keeps I (raiseCode v c : M α) := fun _ hc hb => ⟨hc, hb⟩

/-- Refusing. -/
theorem Keeps.refuse (r : Refusal) : Keeps I (refuse r : M α) := fun _ hc hb => ⟨hc, hb⟩

/-- Sequencing. -/
theorem Keeps.bind {x : M α} {f : α → M β} (hx : Keeps I x) (hf : ∀ a, Keeps I (f a)) : Keeps I (x >>= f) := by
  intro t hc hb
  rw [bind_run]
  have h := hx t hc hb
  cases hr : x t with
  | ok a u => rw [hr] at h; exact hf a u h.1 h.2
  | error e u => rw [hr] at h; exact h

/-- A choice between computations. -/
theorem Keeps.ite {c : Prop} [Decidable c] {x y : M α} (hx : Keeps I x) (hy : Keeps I y) :
    Keeps I (if c then x else y) := by
  split
  · exact hx
  · exact hy

/-- A check. -/
theorem Keeps.need {ok : Bool} {act : M Unit} (h : Keeps I act) : Keeps I (need ok act) := Keeps.ite (Keeps.pure ()) h

/-- A free value. -/
theorem Keeps.anyD (h : ∀ s : State, I s → I (s.drawn 1)) : Keeps I anyD := fun _ hc hb => ⟨h _ hc, h _ hb⟩

/-- A free value of some bits. -/
theorem Keeps.anyBits (h : ∀ s : State, I s → I (s.drawn 1)) (w : Nat) : Keeps I (anyBits w) :=
  (Keeps.anyD h).bind fun _ => Keeps.pure _

/-- The operand size in force. -/
theorem Keeps.withOsz {f : (w : Nat) → M Unit} (h : ∀ w, Keeps I (f w)) : Keeps I (withOsz f) :=
  (Keeps.look _).bind fun _ => Keeps.ite (h 32) (h 16)

/-- A computation for each element of a list. -/
theorem Keeps.mapM {f : α → M β} (h : ∀ a, Keeps I (f a)) : ∀ l : List α, Keeps I (l.mapM f)
  | [] => by rw [List.mapM_nil]; exact Keeps.pure _
  | a :: l => by
    rw [List.mapM_cons]
    exact (h a).bind fun _ => (Keeps.mapM h l).bind fun _ => Keeps.pure _

/-- The same without results. -/
theorem Keeps.forM {f : α → M PUnit} (h : ∀ a, Keeps I (f a)) : ∀ l : List α, Keeps I (l.forM f)
  | [] => Keeps.pure _
  | a :: l => (h a).bind fun _ => Keeps.forM h l

/-! ## Delivery, instructions and steps -/

/-- The delivery of an event keeps what acknowledging, delivering, shutting down and leaving the instruction keep. -/
theorem takeEvent_keeps (ha : ∀ e, Keeps I (acknowledge e)) (hd : ∀ v k err eip, Keeps I (deliver v k err eip))
    (hs : ∀ s, I s → I s.shutDown) (hx : ∀ s : State, I s → I { s with ctx := .empty }) {e : Event} {s t : State}
    (h : I s) (ht : takeEvent e s = .next t) : I t := by
  unfold takeEvent at ht
  generalize 6 = n at ht
  induction n generalizing e s with
  | zero =>
    simp only [deliverChain, Host.Outcome.next.injEq] at ht
    exact ht ▸ hs s h
  | succ n ih =>
    have hk : Keeps I (do acknowledge e; deliver e.vec e.kind e.err s.eip : M Unit) :=
      (ha e).bind fun _ => hd _ _ _ _
    have hr := hk { cur := s, base := s, ext := e.kind.ext } h h
    unfold deliverChain at ht
    split at ht
    · rename_i u he
      rw [he] at hr
      simp only [Host.Outcome.next.injEq] at ht
      exact ht ▸ hx _ hr.1
    · simp at ht
    · rename_i x u he
      rw [he] at hr
      split at ht
      · simp only [Host.Outcome.next.injEq] at ht
        exact ht ▸ hs _ hr.2
      · exact ih hr.2 ht

/-- An instruction keeps what its meaning, its completion and the exceptions it raises keep. -/
theorem instr_keeps {lockable : Bool} {body : M Unit} (hb : Keeps I body) (hc : ∀ s t, I s → I t → I (complete s t))
    (hx : ∀ x s t, I s → takeException x s = .next t → I t) {s t : State} (h : I s)
    (ht : instr lockable body s = .next t) : I t := by
  have hk : Keeps I (do need (!s.ctx.lock || lockable) raiseUD; body : M Unit) :=
    (Keeps.need (Keeps.raise _ _)).bind fun _ => hb
  have hr := hk { cur := s, base := s, ext := false } h h
  unfold instr at ht
  split at ht
  · rename_i u he
    rw [he] at hr
    simp only [Host.Outcome.next.injEq] at ht
    exact ht ▸ hc _ _ h hr.1
  · rename_i x u he
    rw [he] at hr
    exact hx _ _ _ hr.2 ht
  · simp at ht

/-- The items of an instruction keep what each of them keeps. -/
theorem runItems_keeps {ex : Instr → State → Outcome} (he : ∀ i s t, I s → ex i s = .next t → I t) (items : List Instr)
    {s t : State} (h : I s) (ht : runItems ex items s = .next t) : I t := by
  induction items generalizing s with
  | nil =>
    simp only [runItems, Host.Outcome.next.injEq] at ht
    exact ht ▸ h
  | cons i rest ih =>
    unfold runItems at ht
    split at ht
    · rename_i u hu
      exact ih (he _ _ _ h hu) ht
    · simp at ht
    · simp at ht

/-- Fetching and running an instruction keeps what fetching, each instruction and each event keep. -/
theorem runNext_keeps (he : ∀ i s t, I s → exec i s = .next t → I t)
    (hev : ∀ e s t, I s → takeEvent e s = .next t → I t) (hf : Keeps I fetchInstr)
    (hstart : ∀ s len, I s → I (State.begin s len).refill) {s t : State} (h : I s)
    (ht : runNext exec s = .next t) : I t := by
  unfold runNext at ht
  have hr := hf ⟨s, s, false⟩ h h
  split at ht
  · rename_i hq
    rw [hq] at hr
    exact runItems_keeps he _ (hstart _ _ hr.1) ht
  · rename_i hq
    rw [hq] at hr
    exact hev _ _ _ hr.2 ht
  · simp at ht

/-- A step keeps what fetching, each instruction, each event and RESET keep. -/
theorem step_keeps (he : ∀ i s t, I s → exec i s = .next t → I t)
    (hev : ∀ e s t, I s → takeEvent e s = .next t → I t) (hf : Keeps I fetchInstr)
    (hstart : ∀ s len, I s → I (State.begin s len).refill) (hreset : ∀ s, I s → I (State.afterReset s))
    (hbound : ∀ (s : State) b, I s → I { s.clearShadows with trapPending := b }) {s t : State} (h : I s)
    (ht : step s = .next t) : I t := by
  unfold step boundary at ht
  have h' := hbound s (s.trapPending && !s.inhibitSS) h
  split at ht
  · simp only [Host.Outcome.next.injEq] at ht
    exact ht ▸ hreset _ h
  · split at ht
    · simp only [Host.Outcome.next.injEq] at ht
      exact ht ▸ h
    · split at ht
      · exact hev _ _ _ h' ht
      · split at ht
        · exact runNext_keeps he hev hf hstart h' ht
        all_goals
          simp only [Host.Outcome.next.injEq] at ht
          exact ht ▸ h'

end Sys2Proof.Machine
end

