-- ==== Sys2Proof/Laws/Meaning.lean ====
section
/-! SUPPORT. What the shared shapes of instructions do when they run: two operands with a result, a comparison, one operand,
a shift, a bit change, an operand of two parts. Proofs cite these instead of unfolding the meanings. -/

namespace Sys2Proof.Machine

/-- PF as it is computed is the even parity of the low byte. -/
theorem parity_evenOnes {n : Nat} (r : BitVec n) : parity r = evenOnes r := by
  unfold parity evenOnes
  simp only [show List.range 8 = [0, 1, 2, 3, 4, 5, 6, 7] from rfl, List.countP_cons, List.countP_nil]
  generalize r.getLsbD 0 = a
  generalize r.getLsbD 1 = b
  generalize r.getLsbD 2 = c
  generalize r.getLsbD 3 = d
  generalize r.getLsbD 4 = e
  generalize r.getLsbD 5 = f
  generalize r.getLsbD 6 = g
  generalize r.getLsbD 7 = h
  revert a b c d e f g h
  decide

/-- The working state after `k` free values are drawn. -/
def Tx.afterDraws (s : State) (k : Nat) : Tx := { cur := s.drawn k, base := s.drawn k, ext := false }

/-- Writing a byte operand after draws. -/
theorem place8_put (s : State) (k : Nat) (e : RM Reg8) (v : Byte) (h : s.ok8 e true = true) :
    (s.place8 e).write v (Tx.afterDraws s k) =
      .ok () { Tx.afterDraws s k with cur := (s.drawn k).put8 e v } := by
  rw [place8_write s e v (Tx.afterDraws s k) h fun _ => rfl]
  cases e <;> rfl

/-- Writing an operand of `w` bits after draws. -/
theorem placeW_put (s : State) (k w : Nat) (e : RM Gpr) (v : BitVec w) (h : s.okV w e true = true) :
    (s.placeW w e).write v (Tx.afterDraws s k) =
      .ok () { Tx.afterDraws s k with cur := (s.drawn k).putV e v } := by
  rw [placeW_write s w e v (Tx.afterDraws s k) h fun _ => rfl]
  cases e <;> rfl

/-- A two-operand operation on a byte operand. -/
theorem binEb_run {op : BinOp} {e : RM Reg8} {src : M Byte} {s : State} {b r : Byte} {f : Flags} {k : Nat}
    (h : s.ok8 e true = true) (hs : src (Tx.start s) = .ok b (Tx.start s))
    (ho : op 8 (s.get8 e) b (Tx.start s) = .ok (r, f) (Tx.afterDraws s k)) :
    binEb op e src (Tx.start s) =
      .ok () { Tx.afterDraws s k with cur := ((s.drawn k).put8 e r).setFlags f } := by
  refine (bind_run_ok (placeB_run e true (Tx.start s) h)).trans ?_
  refine (bind_run_ok (place8_read e true (Tx.start s) h)).trans ?_
  refine (bind_run_ok (hs)).trans ?_
  refine (bind_run_ok (ho)).trans ?_
  exact bind_run_ok (place8_put s k e _ h)

/-- A two-operand operation on an operand of the operand size. -/
theorem binEv_run {op : BinOp} {e : RM Gpr} {src : (w : Nat) → M (BitVec w)} {s : State} {b r : BitVec s.osz}
    {f : Flags} {k : Nat} (h : s.okV s.osz e true = true) (hs : src s.osz (Tx.start s) = .ok b (Tx.start s))
    (ho : op s.osz (s.getV s.osz e) b (Tx.start s) = .ok (r, f) (Tx.afterDraws s k)) :
    binEv op e src (Tx.start s) =
      .ok () { Tx.afterDraws s k with cur := ((s.drawn k).putV e r).setFlags f } := by
  refine (withOsz_run _ _).trans ?_
  refine (bind_run_ok (placeV_run s.osz e true (Tx.start s) h)).trans ?_
  refine (bind_run_ok (placeW_read s.osz e true (Tx.start s) h)).trans ?_
  refine (bind_run_ok (hs)).trans ?_
  refine (bind_run_ok (ho)).trans ?_
  exact bind_run_ok (placeW_put s k s.osz e _ h)

/-- A comparison of a byte operand. -/
theorem cmpEb_run {op : BinOp} {e : RM Reg8} {src : M Byte} {s : State} {b r : Byte} {f : Flags} {k : Nat}
    (h : s.ok8 e false = true) (hs : src (Tx.start s) = .ok b (Tx.start s))
    (ho : op 8 (s.get8 e) b (Tx.start s) = .ok (r, f) (Tx.afterDraws s k)) :
    cmpEb op e src (Tx.start s) = .ok () { Tx.afterDraws s k with cur := (s.drawn k).setFlags f } := by
  refine (bind_run_ok (placeB_run e false (Tx.start s) h)).trans ?_
  refine (bind_run_ok (place8_read e false (Tx.start s) h)).trans ?_
  refine (bind_run_ok (hs)).trans ?_
  exact bind_run_ok ho

/-- A comparison of an operand of the operand size. -/
theorem cmpEv_run {op : BinOp} {e : RM Gpr} {src : (w : Nat) → M (BitVec w)} {s : State} {b r : BitVec s.osz}
    {f : Flags} {k : Nat} (h : s.okV s.osz e false = true) (hs : src s.osz (Tx.start s) = .ok b (Tx.start s))
    (ho : op s.osz (s.getV s.osz e) b (Tx.start s) = .ok (r, f) (Tx.afterDraws s k)) :
    cmpEv op e src (Tx.start s) = .ok () { Tx.afterDraws s k with cur := (s.drawn k).setFlags f } := by
  refine (withOsz_run _ _).trans ?_
  refine (bind_run_ok (placeV_run s.osz e false (Tx.start s) h)).trans ?_
  refine (bind_run_ok (placeW_read s.osz e false (Tx.start s) h)).trans ?_
  refine (bind_run_ok (hs)).trans ?_
  exact bind_run_ok ho

/-- A one-operand operation on a byte operand. -/
theorem unEb_run {op : UnOp} {e : RM Reg8} {s : State} {r : Byte} {f : Flags} (h : s.ok8 e true = true)
    (ho : op 8 (s.get8 e) (Tx.start s) = .ok (r, f) (Tx.start s)) :
    unEb op e (Tx.start s) = .ok () { Tx.start s with cur := (s.put8 e r).setFlags f } := by
  refine (bind_run_ok (placeB_run e true (Tx.start s) h)).trans ?_
  refine (bind_run_ok (place8_read e true (Tx.start s) h)).trans ?_
  refine (bind_run_ok (ho)).trans ?_
  exact bind_run_ok (place8_put s 0 e _ h)

/-- A one-operand operation on an operand of the operand size. -/
theorem unEv_run {op : UnOp} {e : RM Gpr} {s : State} {r : BitVec s.osz} {f : Flags} (h : s.okV s.osz e true = true)
    (ho : op s.osz (s.getV s.osz e) (Tx.start s) = .ok (r, f) (Tx.start s)) :
    unEv op e (Tx.start s) = .ok () { Tx.start s with cur := (s.putV e r).setFlags f } := by
  refine (withOsz_run _ _).trans ?_
  refine (bind_run_ok (placeV_run s.osz e true (Tx.start s) h)).trans ?_
  refine (bind_run_ok (placeW_read s.osz e true (Tx.start s) h)).trans ?_
  refine (bind_run_ok (ho)).trans ?_
  exact bind_run_ok (placeW_put s 0 s.osz e _ h)

/-- A shift of a byte operand: nothing with a masked count of 0, else the result and the flags. -/
theorem shiftEb_run {op : ShiftOp} {e : RM Reg8} {count : M Byte} {s : State} {c : Byte} (h : s.ok8 e true = true)
    (hc : count (Tx.start s) = .ok c (Tx.start s)) :
    shiftEb op e count (Tx.start s) =
      if maskCount c = 0 then .ok () (Tx.start s)
      else
        .ok () { Tx.afterDraws s 1 with
          cur := ((s.drawn 1).put8 e (op 8 (s.get8 e) (maskCount c) s.flags (s.any 0)).1).setFlags
            (op 8 (s.get8 e) (maskCount c) s.flags (s.any 0)).2 } := by
  refine (bind_run_ok (placeB_run e true (Tx.start s) h)).trans ?_
  refine (bind_run_ok (place8_read e true (Tx.start s) h)).trans ?_
  refine (bind_run_ok (hc)).trans ?_
  by_cases hz : maskCount c = 0
  · simp only [hz, if_true]
    rfl
  · simp only [hz, if_false]
    refine (bind_run_ok (anyD_run (Tx.start s))).trans ?_
    refine (bind_run_ok (look_run State.flags (Tx.afterDraws s 1))).trans ?_
    exact bind_run_ok (place8_put s 1 e _ h)

/-- A shift of an operand of the operand size. -/
theorem shiftEv_run {op : ShiftOp} {e : RM Gpr} {count : M Byte} {s : State} {c : Byte}
    (h : s.okV s.osz e true = true) (hc : count (Tx.start s) = .ok c (Tx.start s)) :
    shiftEv op e count (Tx.start s) =
      if maskCount c = 0 then .ok () (Tx.start s)
      else
        .ok () { Tx.afterDraws s 1 with
          cur := ((s.drawn 1).putV e (op s.osz (s.getV s.osz e) (maskCount c) s.flags (s.any 0)).1).setFlags
            (op s.osz (s.getV s.osz e) (maskCount c) s.flags (s.any 0)).2 } := by
  refine (withOsz_run _ _).trans ?_
  refine (bind_run_ok (placeV_run s.osz e true (Tx.start s) h)).trans ?_
  refine (bind_run_ok (placeW_read s.osz e true (Tx.start s) h)).trans ?_
  refine (bind_run_ok (hc)).trans ?_
  by_cases hz : maskCount c = 0
  · simp only [hz, if_true]
    rfl
  · simp only [hz, if_false]
    refine (bind_run_ok (anyD_run (Tx.start s))).trans ?_
    refine (bind_run_ok (look_run State.flags (Tx.afterDraws s 1))).trans ?_
    exact bind_run_ok (placeW_put s 1 s.osz e _ h)

/-- A far pointer that can be reached is read: its offset, then its selector. -/
theorem readFar_run (w : Nat) (m : Mem) (t : Tx) (hw : 8 ≤ w)
    (h : t.cur.reachable (t.cur.effSeg m) (t.cur.effOff m) (w / 8 + 2) false = true) :
    readFar w m t =
      .ok (t.cur.load (t.cur.effSeg m) (t.cur.effOff m) (w / 8) w,
        t.cur.load (t.cur.effSeg m) (t.cur.effOff m + BitVec.ofNat 32 (w / 8)) 2 16) t := by
  unfold readFar
  rw [bind_run_ok (readMem_run m (w / 8) w t h (by omega) (by omega)),
    bind_run_ok (readPart_run m (w / 8) 2 16 t h (by omega) (by omega))]
  rfl

/-- LGDT and LIDT read the limit and the base of an operand that can be reached. -/
theorem loadTable_run (m : Mem) (t : Tx) (hp : needPrivilege t = .ok () t)
    (h : t.cur.reachable (t.cur.effSeg m) (t.cur.effOff m) 6 false = true) :
    loadTable m t = .ok (t.cur.tableAt m) t := by
  unfold loadTable
  rw [bind_run_ok hp, bind_run_ok (readMem_run m 2 16 t h (by omega) (by omega)),
    bind_run_ok (readPart_run m 2 4 32 t h (by omega) (by omega))]
  rfl

/-- Storing leaves where a segment lies. -/
@[simp] theorem store_addrs (s : State) (r q : Sreg) (off o : Dword) (n k : Nat) {w : Nat} (v : BitVec w) :
    (s.store r off n v).addrs q o k = s.addrs q o k := by
  unfold State.addrs State.seg State.store
  rw [storeBytes_segs]

/-- Two writes to RAM, one after the other. -/
theorem writePhys_then {pas qas : List Dword} (bs cs : List Byte) (t : Tx)
    (hp : ∀ pa ∈ pas, t.cur.kindAt pa.toNat = .ram) (hq : ∀ pa ∈ qas, t.cur.kindAt pa.toNat = .ram) :
    (do writePhys pas bs; writePhys qas cs : M Unit) t =
      .ok () { t with cur := (t.cur.storeBytes pas bs).storeBytes qas cs } := by
  rw [bind_run_ok (writePhys_run pas bs t hp)]
  exact writePhys_run qas cs _ fun pa h => (storeBytes_kindAt ..).trans (hq pa h)

/-- SGDT and SIDT store the limit and the base in an operand that can be reached. -/
theorem storeTable_run (m : Mem) (r : TableReg) (t : Tx)
    (h : t.cur.reachable (t.cur.effSeg m) (t.cur.effOff m) 6 true = true) :
    storeTable m r t =
      .ok () { t with cur := t.cur.tableStored m r
                      base := if t.cur.o32 then t.base else t.base.drawn 1 } := by
  have h0 := ((reachable_iff ..).mp (reachable_part (k := 0) (n := 2) h (by omega) (by omega)).2).2.2.2.2
  have h2 := ((reachable_iff ..).mp (reachable_part (k := 2) (n := 4) h (by omega) (by omega)).2).2.2.2.2
  simp only [show t.cur.effOff m + BitVec.ofNat 32 0 = t.cur.effOff m by simp] at h0
  have hl := partPlan_run m 0 2 true t h (by omega) (by omega)
  simp only [show t.cur.effOff m + BitVec.ofNat 32 0 = t.cur.effOff m by simp] at hl
  unfold storeTable
  rw [bind_run_ok hl, bind_run_ok (partPlan_run m 2 4 true t h (by omega) (by omega)), bind_run_ok (look_run _ t)]
  cases ho : t.cur.o32
  · simp only [State.tableStored, ho, Bool.false_eq_true, if_false]
    refine (bind_run_ok (anyBits_run 8 t)).trans ?_
    refine (bind_run_ok (pure_run _ _)).trans ?_
    refine (writePhys_then _ _ { t with cur := t.cur.drawn 1, base := t.base.drawn 1 } h0 h2).trans ?_
    rw [State.store, store_addrs]
    rfl
  · simp only [State.tableStored, ho, if_true]
    refine (bind_run_ok (pure_run r.base t)).trans ?_
    refine (writePhys_then _ _ t h0 h2).trans ?_
    rw [State.store, store_addrs]
    rfl

end Sys2Proof.Machine
end

