-- ==== Sys2Proof/Tests/Slice0.lean ====
section
/-! SUPPORT. Tests: which terms are well formed, the decoding of every row of spec/opcode_table.json, single steps whose
results 96_derived_vectors.md works out, and, for each obligation with hypotheses, states and operands that meet them. -/

namespace Sys2Proof.Tests

set_option Elab.async false

open Sys2Proof Sys2Proof.Machine

/-! ## Well-formed instructions -/

/-- 32-bit and 16-bit code. -/
def c32 : DecodeCtx := { d32 := true }
def c16 : DecodeCtx := { d32 := false }

/-- [BP] has no 16-bit form without a displacement (30_encoding.md R323). -/
theorem test_wf_bp_needs_displacement :
    Instr.wf c16 (.negEb (.mem (.m16 (.based .bp .none)))) = false ∧
    Instr.wf c16 (.negEb (.mem (.m16 (.based .bp (.d8 0))))) = true := by decide +kernel

/-- ESP as a base needs the SIB byte (30_encoding.md R321). -/
theorem test_wf_esp_needs_sib :
    Instr.wf c32 (.negEb (.mem (.m32 (.based .esp .none)))) = false ∧
    Instr.wf c32 (.negEb (.mem (.m32 (.sib 0 .esp .esp .none)))) = true := by decide +kernel

/-- EBP as a base needs a displacement, with and without SIB (30_encoding.md R321, R322). -/
theorem test_wf_ebp_needs_displacement :
    Instr.wf c32 (.negEb (.mem (.m32 (.based .ebp .none)))) = false ∧
    Instr.wf c32 (.negEb (.mem (.m32 (.sib 1 .eax .ebp .none)))) = false ∧
    Instr.wf c32 (.negEb (.mem (.m32 (.sib 1 .eax .ebp (.d8 0))))) = true := by decide +kernel

/-- A memory operand is of the address size in force, in every operand kind (30_encoding.md R311). -/
theorem test_wf_address_size :
    Instr.wf c32 (.negEb (.mem (.m16 (.based .bx .none)))) = false ∧
    Instr.wf c16 (.negEb (.mem (.m32 (.based .ebx .none)))) = false ∧
    Instr.wf { c32 with ad67 := true } (.negEb (.mem (.m16 (.based .bx .none)))) = true ∧
    Instr.wf c32 (.leaGvM .eax (.m16 (.based .bx .none))) = false ∧
    Instr.wf c32 (.imulGvEvIv .eax (.mem (.m16 (.based .bx .none))) 1) = false ∧
    Instr.wf c32 (.movSwEw .ds (.mem (.m16 (.based .bx .none)))) = false := by decide +kernel

/-- Immediates, displacements, far offsets and direct offsets fit their size (30_encoding.md R335 to R339). -/
theorem test_wf_fits :
    Instr.wf c16 (.pushIv 0x10000) = false ∧ Instr.wf c16 (.pushIv 0xFFFF) = true ∧
    Instr.wf c16 (.movEvIv (.reg .eax) 0x10000) = false ∧ Instr.wf c16 (.jmpJv 0x10000) = false ∧
    Instr.wf c16 (.callAp 0x10000 8) = false ∧ Instr.wf c16 (.movALOb 0x10000) = false ∧
    Instr.wf { c16 with ad67 := true } (.movALOb 0x10000) = true := by decide +kernel

/-- MOV to CS and XCHG EAX,EAX are no terms of their own: the first is undefined, the second is NOP (30_encoding.md
R349, R361). -/
theorem test_wf_register_fields :
    Instr.wf c32 (.movSwEw .cs (.reg .eax)) = false ∧ Instr.wf c32 (.xchgEAXRv .eax) = false ∧
    Instr.wf c32 (.movSwEw .ss (.reg .eax)) = true ∧ Instr.wf c32 (.xchgEAXRv .ecx) = true := by decide +kernel

/-! ## Decoding -/

/-- `bs` decodes to `i` alone. -/
def reads (c : DecodeCtx) (bs : List Byte) (i : Instr) : Bool :=
  match (decodeOne c).run bs with
  | .ok (j, []) => j == i
  | _ => false

/-- A row of the decode tests, in 32-bit code. -/
def decodes32 (r : List Byte × Instr) : Bool := reads c32 r.1 r.2

/-- The memory operand [EBX+12H] of the decode tests: modR/M mod 1, rm 3, then 12H. -/
def m : Mem := .m32 (.based .ebx (.d8 0x12))

/-! One word for every row, written from the row's opcode, its /digit and the operand codes of 30_encoding.md R340. -/

/-- The rows of spec/opcode_table.json from addEbGb (00) to xorGvEv (33). -/
theorem test_decode_table_1 : ([
    ([0x00, 0x6B, 0x12], .addEbGb (.mem m) .ch), ([0x01, 0x6B, 0x12], .addEvGv (.mem m) .ebp),
    ([0x02, 0x6B, 0x12], .addGbEb .ch (.mem m)), ([0x03, 0x6B, 0x12], .addGvEv .ebp (.mem m)),
    ([0x04, 0x84], .addALIb 0x84), ([0x05, 0x04, 0x03, 0x02, 0x81], .addEAXIv 0x81020304),
    ([0x08, 0x6B, 0x12], .orEbGb (.mem m) .ch), ([0x09, 0x6B, 0x12], .orEvGv (.mem m) .ebp),
    ([0x0A, 0x6B, 0x12], .orGbEb .ch (.mem m)), ([0x0B, 0x6B, 0x12], .orGvEv .ebp (.mem m)),
    ([0x0C, 0x84], .orALIb 0x84), ([0x0D, 0x04, 0x03, 0x02, 0x81], .orEAXIv 0x81020304),
    ([0x10, 0x6B, 0x12], .adcEbGb (.mem m) .ch), ([0x11, 0x6B, 0x12], .adcEvGv (.mem m) .ebp),
    ([0x12, 0x6B, 0x12], .adcGbEb .ch (.mem m)), ([0x13, 0x6B, 0x12], .adcGvEv .ebp (.mem m)),
    ([0x14, 0x84], .adcALIb 0x84), ([0x15, 0x04, 0x03, 0x02, 0x81], .adcEAXIv 0x81020304),
    ([0x18, 0x6B, 0x12], .sbbEbGb (.mem m) .ch), ([0x19, 0x6B, 0x12], .sbbEvGv (.mem m) .ebp),
    ([0x1A, 0x6B, 0x12], .sbbGbEb .ch (.mem m)), ([0x1B, 0x6B, 0x12], .sbbGvEv .ebp (.mem m)),
    ([0x1C, 0x84], .sbbALIb 0x84), ([0x1D, 0x04, 0x03, 0x02, 0x81], .sbbEAXIv 0x81020304),
    ([0x20, 0x6B, 0x12], .andEbGb (.mem m) .ch), ([0x21, 0x6B, 0x12], .andEvGv (.mem m) .ebp),
    ([0x22, 0x6B, 0x12], .andGbEb .ch (.mem m)), ([0x23, 0x6B, 0x12], .andGvEv .ebp (.mem m)),
    ([0x24, 0x84], .andALIb 0x84), ([0x25, 0x04, 0x03, 0x02, 0x81], .andEAXIv 0x81020304),
    ([0x28, 0x6B, 0x12], .subEbGb (.mem m) .ch), ([0x29, 0x6B, 0x12], .subEvGv (.mem m) .ebp),
    ([0x2A, 0x6B, 0x12], .subGbEb .ch (.mem m)), ([0x2B, 0x6B, 0x12], .subGvEv .ebp (.mem m)),
    ([0x2C, 0x84], .subALIb 0x84), ([0x2D, 0x04, 0x03, 0x02, 0x81], .subEAXIv 0x81020304),
    ([0x30, 0x6B, 0x12], .xorEbGb (.mem m) .ch), ([0x31, 0x6B, 0x12], .xorEvGv (.mem m) .ebp),
    ([0x32, 0x6B, 0x12], .xorGbEb .ch (.mem m)),
    ([0x33, 0x6B, 0x12], .xorGvEv .ebp (.mem m))] : List (List Byte × Instr)).all decodes32 = true := by decide +kernel

/-- The rows of spec/opcode_table.json from xorALIb (34) to insb (6C). -/
theorem test_decode_table_2 : ([
    ([0x34, 0x84], .xorALIb 0x84), ([0x35, 0x04, 0x03, 0x02, 0x81], .xorEAXIv 0x81020304),
    ([0x38, 0x6B, 0x12], .cmpEbGb (.mem m) .ch), ([0x39, 0x6B, 0x12], .cmpEvGv (.mem m) .ebp),
    ([0x3A, 0x6B, 0x12], .cmpGbEb .ch (.mem m)), ([0x3B, 0x6B, 0x12], .cmpGvEv .ebp (.mem m)),
    ([0x3C, 0x84], .cmpALIb 0x84), ([0x3D, 0x04, 0x03, 0x02, 0x81], .cmpEAXIv 0x81020304), ([0x06], .pushES),
    ([0x07], .popES), ([0x0E], .pushCS), ([0x16], .pushSS), ([0x17], .popSS), ([0x1E], .pushDS), ([0x1F], .popDS),
    ([0x26], .pfxES), ([0x27], .daa), ([0x2E], .pfxCS), ([0x2F], .das), ([0x36], .pfxSS), ([0x37], .aaa),
    ([0x3E], .pfxDS), ([0x3F], .aas), ([0x46], .incRv .esi), ([0x4E], .decRv .esi), ([0x56], .pushRv .esi),
    ([0x5E], .popRv .esi), ([0x60], .pusha), ([0x61], .popa), ([0x62, 0x6B, 0x12], .boundGvMa .ebp m),
    ([0x63, 0x6B, 0x12], .arplEwGw (.mem m) .ebp), ([0x64], .pfxFS), ([0x65], .pfxGS), ([0x66], .pfxOpSize),
    ([0x67], .pfxAddrSize), ([0x68, 0x04, 0x03, 0x02, 0x81], .pushIv 0x81020304),
    ([0x69, 0x6B, 0x12, 0x04, 0x03, 0x02, 0x81], .imulGvEvIv .ebp (.mem m) 0x81020304), ([0x6A, 0x84], .pushIb 0x84),
    ([0x6B, 0x6B, 0x12, 0x84], .imulGvEvIb .ebp (.mem m) 0x84),
    ([0x6C], .insb)] : List (List Byte × Instr)).all decodes32 = true := by decide +kernel

/-- The rows of spec/opcode_table.json from insv (6D) to popEv (8F). -/
theorem test_decode_table_3 : ([
    ([0x6D], .insv), ([0x6E], .outsb), ([0x6F], .outsv), ([0x7D, 0x84], .jccJb .ge 0x84),
    ([0x80, 0x43, 0x12, 0x84], .addEbIb (.mem m) 0x84),
    ([0x81, 0x43, 0x12, 0x04, 0x03, 0x02, 0x81], .addEvIv (.mem m) 0x81020304),
    ([0x83, 0x43, 0x12, 0x84], .addEvIb (.mem m) 0x84), ([0x80, 0x4B, 0x12, 0x84], .orEbIb (.mem m) 0x84),
    ([0x81, 0x4B, 0x12, 0x04, 0x03, 0x02, 0x81], .orEvIv (.mem m) 0x81020304),
    ([0x83, 0x4B, 0x12, 0x84], .orEvIb (.mem m) 0x84), ([0x80, 0x53, 0x12, 0x84], .adcEbIb (.mem m) 0x84),
    ([0x81, 0x53, 0x12, 0x04, 0x03, 0x02, 0x81], .adcEvIv (.mem m) 0x81020304),
    ([0x83, 0x53, 0x12, 0x84], .adcEvIb (.mem m) 0x84), ([0x80, 0x5B, 0x12, 0x84], .sbbEbIb (.mem m) 0x84),
    ([0x81, 0x5B, 0x12, 0x04, 0x03, 0x02, 0x81], .sbbEvIv (.mem m) 0x81020304),
    ([0x83, 0x5B, 0x12, 0x84], .sbbEvIb (.mem m) 0x84), ([0x80, 0x63, 0x12, 0x84], .andEbIb (.mem m) 0x84),
    ([0x81, 0x63, 0x12, 0x04, 0x03, 0x02, 0x81], .andEvIv (.mem m) 0x81020304),
    ([0x83, 0x63, 0x12, 0x84], .andEvIb (.mem m) 0x84), ([0x80, 0x6B, 0x12, 0x84], .subEbIb (.mem m) 0x84),
    ([0x81, 0x6B, 0x12, 0x04, 0x03, 0x02, 0x81], .subEvIv (.mem m) 0x81020304),
    ([0x83, 0x6B, 0x12, 0x84], .subEvIb (.mem m) 0x84), ([0x80, 0x73, 0x12, 0x84], .xorEbIb (.mem m) 0x84),
    ([0x81, 0x73, 0x12, 0x04, 0x03, 0x02, 0x81], .xorEvIv (.mem m) 0x81020304),
    ([0x83, 0x73, 0x12, 0x84], .xorEvIb (.mem m) 0x84), ([0x80, 0x7B, 0x12, 0x84], .cmpEbIb (.mem m) 0x84),
    ([0x81, 0x7B, 0x12, 0x04, 0x03, 0x02, 0x81], .cmpEvIv (.mem m) 0x81020304),
    ([0x83, 0x7B, 0x12, 0x84], .cmpEvIb (.mem m) 0x84), ([0x84, 0x6B, 0x12], .testEbGb (.mem m) .ch),
    ([0x85, 0x6B, 0x12], .testEvGv (.mem m) .ebp), ([0x86, 0x6B, 0x12], .xchgEbGb (.mem m) .ch),
    ([0x87, 0x6B, 0x12], .xchgEvGv (.mem m) .ebp), ([0x88, 0x6B, 0x12], .movEbGb (.mem m) .ch),
    ([0x89, 0x6B, 0x12], .movEvGv (.mem m) .ebp), ([0x8A, 0x6B, 0x12], .movGbEb .ch (.mem m)),
    ([0x8B, 0x6B, 0x12], .movGvEv .ebp (.mem m)), ([0x8C, 0x6B, 0x12], .movEwSw (.mem m) .gs),
    ([0x8D, 0x6B, 0x12], .leaGvM .ebp m), ([0x8E, 0x6B, 0x12], .movSwEw .gs (.mem m)),
    ([0x8F, 0x43, 0x12], .popEv (.mem m))] : List (List Byte × Instr)).all decodes32 = true := by decide +kernel

/-- The rows of spec/opcode_table.json from nop (90) to shrEvIb (C1). -/
theorem test_decode_table_4 : ([
    ([0x90], .nop), ([0x96], .xchgEAXRv .esi), ([0x98], .cbw), ([0x99], .cwd),
    ([0x9A, 0x04, 0x03, 0x02, 0x81, 0x06, 0x85], .callAp 0x81020304 0x8506), ([0x9B], .wait), ([0x9C], .pushf),
    ([0x9D], .popf), ([0x9E], .sahf), ([0x9F], .lahf), ([0xA0, 0x04, 0x03, 0x02, 0x81], .movALOb 0x81020304),
    ([0xA1, 0x04, 0x03, 0x02, 0x81], .movEAXOv 0x81020304), ([0xA2, 0x04, 0x03, 0x02, 0x81], .movObAL 0x81020304),
    ([0xA3, 0x04, 0x03, 0x02, 0x81], .movOvEAX 0x81020304), ([0xA4], .movsb), ([0xA5], .movsv), ([0xA6], .cmpsb),
    ([0xA7], .cmpsv), ([0xA8, 0x84], .testALIb 0x84), ([0xA9, 0x04, 0x03, 0x02, 0x81], .testEAXIv 0x81020304),
    ([0xAA], .stosb), ([0xAB], .stosv), ([0xAC], .lodsb), ([0xAD], .lodsv), ([0xAE], .scasb), ([0xAF], .scasv),
    ([0xB6, 0x84], .movRbIb .dh 0x84), ([0xBE, 0x04, 0x03, 0x02, 0x81], .movRvIv .esi 0x81020304),
    ([0xC0, 0x43, 0x12, 0x84], .rolEbIb (.mem m) 0x84), ([0xC1, 0x43, 0x12, 0x84], .rolEvIb (.mem m) 0x84),
    ([0xC0, 0x4B, 0x12, 0x84], .rorEbIb (.mem m) 0x84), ([0xC1, 0x4B, 0x12, 0x84], .rorEvIb (.mem m) 0x84),
    ([0xC0, 0x53, 0x12, 0x84], .rclEbIb (.mem m) 0x84), ([0xC1, 0x53, 0x12, 0x84], .rclEvIb (.mem m) 0x84),
    ([0xC0, 0x5B, 0x12, 0x84], .rcrEbIb (.mem m) 0x84), ([0xC1, 0x5B, 0x12, 0x84], .rcrEvIb (.mem m) 0x84),
    ([0xC0, 0x63, 0x12, 0x84], .shlEbIb (.mem m) 0x84), ([0xC1, 0x63, 0x12, 0x84], .shlEvIb (.mem m) 0x84),
    ([0xC0, 0x6B, 0x12, 0x84], .shrEbIb (.mem m) 0x84),
    ([0xC1, 0x6B, 0x12, 0x84], .shrEvIb (.mem m) 0x84)] : List (List Byte × Instr)).all decodes32 = true := by decide +kernel

/-- The rows of spec/opcode_table.json from sarEbIb (C0) to shrEvCL (D3). -/
theorem test_decode_table_5 : ([
    ([0xC0, 0x7B, 0x12, 0x84], .sarEbIb (.mem m) 0x84), ([0xC1, 0x7B, 0x12, 0x84], .sarEvIb (.mem m) 0x84),
    ([0xC2, 0x06, 0x85], .retIw 0x8506), ([0xC3], .ret), ([0xC4, 0x6B, 0x12], .lesGvMp .ebp m),
    ([0xC5, 0x6B, 0x12], .ldsGvMp .ebp m), ([0xC6, 0x43, 0x12, 0x84], .movEbIb (.mem m) 0x84),
    ([0xC7, 0x43, 0x12, 0x04, 0x03, 0x02, 0x81], .movEvIv (.mem m) 0x81020304),
    ([0xC8, 0x06, 0x85, 0x84], .enterIwIb 0x8506 0x84), ([0xC9], .leave), ([0xCA, 0x06, 0x85], .retfIw 0x8506),
    ([0xCB], .retf), ([0xCC], .int3), ([0xCD, 0x84], .intIb 0x84), ([0xCE], .into), ([0xCF], .iret),
    ([0xD0, 0x43, 0x12], .rolEb1 (.mem m)), ([0xD1, 0x43, 0x12], .rolEv1 (.mem m)),
    ([0xD2, 0x43, 0x12], .rolEbCL (.mem m)), ([0xD3, 0x43, 0x12], .rolEvCL (.mem m)),
    ([0xD0, 0x4B, 0x12], .rorEb1 (.mem m)), ([0xD1, 0x4B, 0x12], .rorEv1 (.mem m)),
    ([0xD2, 0x4B, 0x12], .rorEbCL (.mem m)), ([0xD3, 0x4B, 0x12], .rorEvCL (.mem m)),
    ([0xD0, 0x53, 0x12], .rclEb1 (.mem m)), ([0xD1, 0x53, 0x12], .rclEv1 (.mem m)),
    ([0xD2, 0x53, 0x12], .rclEbCL (.mem m)), ([0xD3, 0x53, 0x12], .rclEvCL (.mem m)),
    ([0xD0, 0x5B, 0x12], .rcrEb1 (.mem m)), ([0xD1, 0x5B, 0x12], .rcrEv1 (.mem m)),
    ([0xD2, 0x5B, 0x12], .rcrEbCL (.mem m)), ([0xD3, 0x5B, 0x12], .rcrEvCL (.mem m)),
    ([0xD0, 0x63, 0x12], .shlEb1 (.mem m)), ([0xD1, 0x63, 0x12], .shlEv1 (.mem m)),
    ([0xD2, 0x63, 0x12], .shlEbCL (.mem m)), ([0xD3, 0x63, 0x12], .shlEvCL (.mem m)),
    ([0xD0, 0x6B, 0x12], .shrEb1 (.mem m)), ([0xD1, 0x6B, 0x12], .shrEv1 (.mem m)),
    ([0xD2, 0x6B, 0x12], .shrEbCL (.mem m)),
    ([0xD3, 0x6B, 0x12], .shrEvCL (.mem m))] : List (List Byte × Instr)).all decodes32 = true := by decide +kernel

/-- The rows of spec/opcode_table.json from sarEb1 (D0) to mulEb (F6). -/
theorem test_decode_table_6 : ([
    ([0xD0, 0x7B, 0x12], .sarEb1 (.mem m)), ([0xD1, 0x7B, 0x12], .sarEv1 (.mem m)),
    ([0xD2, 0x7B, 0x12], .sarEbCL (.mem m)), ([0xD3, 0x7B, 0x12], .sarEvCL (.mem m)), ([0xD4, 0x84], .aamIb 0x84),
    ([0xD5, 0x84], .aadIb 0x84), ([0xD7], .xlat), ([0xD8, 0x6B, 0x12], .esc0 5 (.mem m)),
    ([0xD9, 0x6B, 0x12], .esc1 5 (.mem m)), ([0xDA, 0x6B, 0x12], .esc2 5 (.mem m)),
    ([0xDB, 0x6B, 0x12], .esc3 5 (.mem m)), ([0xDC, 0x6B, 0x12], .esc4 5 (.mem m)),
    ([0xDD, 0x6B, 0x12], .esc5 5 (.mem m)), ([0xDE, 0x6B, 0x12], .esc6 5 (.mem m)),
    ([0xDF, 0x6B, 0x12], .esc7 5 (.mem m)), ([0xE0, 0x84], .loopneJb 0x84), ([0xE1, 0x84], .loopeJb 0x84),
    ([0xE2, 0x84], .loopJb 0x84), ([0xE3, 0x84], .jcxzJb 0x84), ([0xE4, 0x84], .inALIb 0x84),
    ([0xE5, 0x84], .inEAXIb 0x84), ([0xE6, 0x84], .outIbAL 0x84), ([0xE7, 0x84], .outIbEAX 0x84),
    ([0xE8, 0x04, 0x03, 0x02, 0x81], .callJv 0x81020304), ([0xE9, 0x04, 0x03, 0x02, 0x81], .jmpJv 0x81020304),
    ([0xEA, 0x04, 0x03, 0x02, 0x81, 0x06, 0x85], .jmpAp 0x81020304 0x8506), ([0xEB, 0x84], .jmpJb 0x84),
    ([0xEC], .inALDX), ([0xED], .inEAXDX), ([0xEE], .outDXAL), ([0xEF], .outDXEAX), ([0xF0], .pfxLock),
    ([0xF2], .pfxRepne), ([0xF3], .pfxRep), ([0xF4], .hlt), ([0xF5], .cmc),
    ([0xF6, 0x43, 0x12, 0x84], .testEbIb (.mem m) 0x84), ([0xF6, 0x53, 0x12], .notEb (.mem m)),
    ([0xF6, 0x5B, 0x12], .negEb (.mem m)),
    ([0xF6, 0x63, 0x12], .mulEb (.mem m))] : List (List Byte × Instr)).all decodes32 = true := by decide +kernel

/-- The rows of spec/opcode_table.json from imulEb (F6) to clts (0F 06). -/
theorem test_decode_table_7 : ([
    ([0xF6, 0x6B, 0x12], .imulEb (.mem m)), ([0xF6, 0x73, 0x12], .divEb (.mem m)),
    ([0xF6, 0x7B, 0x12], .idivEb (.mem m)),
    ([0xF7, 0x43, 0x12, 0x04, 0x03, 0x02, 0x81], .testEvIv (.mem m) 0x81020304),
    ([0xF7, 0x53, 0x12], .notEv (.mem m)), ([0xF7, 0x5B, 0x12], .negEv (.mem m)),
    ([0xF7, 0x63, 0x12], .mulEv (.mem m)), ([0xF7, 0x6B, 0x12], .imulEv (.mem m)),
    ([0xF7, 0x73, 0x12], .divEv (.mem m)), ([0xF7, 0x7B, 0x12], .idivEv (.mem m)), ([0xF8], .clc), ([0xF9], .stc),
    ([0xFA], .cli), ([0xFB], .sti), ([0xFC], .cld), ([0xFD], .std), ([0xFE, 0x43, 0x12], .incEb (.mem m)),
    ([0xFE, 0x4B, 0x12], .decEb (.mem m)), ([0xFF, 0x43, 0x12], .incEv (.mem m)),
    ([0xFF, 0x4B, 0x12], .decEv (.mem m)), ([0xFF, 0x53, 0x12], .callEv (.mem m)), ([0xFF, 0x5B, 0x12], .callEp m),
    ([0xFF, 0x63, 0x12], .jmpEv (.mem m)), ([0xFF, 0x6B, 0x12], .jmpEp m), ([0xFF, 0x73, 0x12], .pushEv (.mem m)),
    ([0x0F, 0x00, 0x43, 0x12], .sldtEw (.mem m)), ([0x0F, 0x00, 0x4B, 0x12], .strEw (.mem m)),
    ([0x0F, 0x00, 0x53, 0x12], .lldtEw (.mem m)), ([0x0F, 0x00, 0x5B, 0x12], .ltrEw (.mem m)),
    ([0x0F, 0x00, 0x63, 0x12], .verrEw (.mem m)), ([0x0F, 0x00, 0x6B, 0x12], .verwEw (.mem m)),
    ([0x0F, 0x01, 0x43, 0x12], .sgdtMs m), ([0x0F, 0x01, 0x4B, 0x12], .sidtMs m),
    ([0x0F, 0x01, 0x53, 0x12], .lgdtMs m), ([0x0F, 0x01, 0x5B, 0x12], .lidtMs m),
    ([0x0F, 0x01, 0x63, 0x12], .smswEw (.mem m)), ([0x0F, 0x01, 0x73, 0x12], .lmswEw (.mem m)),
    ([0x0F, 0x02, 0x6B, 0x12], .larGvEw .ebp (.mem m)), ([0x0F, 0x03, 0x6B, 0x12], .lslGvEw .ebp (.mem m)),
    ([0x0F, 0x06], .clts)] : List (List Byte × Instr)).all decodes32 = true := by decide +kernel

/-- The rows of spec/opcode_table.json from movRdCd (0F) to movsxGvEw (0F BF). -/
theorem test_decode_table_8 : ([
    ([0x0F, 0x20, 0xEE], .movRdCd .esi 5), ([0x0F, 0x21, 0xEE], .movRdDd .esi 5),
    ([0x0F, 0x22, 0xEE], .movCdRd 5 .esi), ([0x0F, 0x23, 0xEE], .movDdRd 5 .esi),
    ([0x0F, 0x24, 0xEE], .movRdTd .esi 5), ([0x0F, 0x26, 0xEE], .movTdRd 5 .esi),
    ([0x0F, 0x8D, 0x04, 0x03, 0x02, 0x81], .jccJv .ge 0x81020304), ([0x0F, 0x9D, 0x6B, 0x12], .setccEb .ge (.mem m)),
    ([0x0F, 0xA0], .pushFS), ([0x0F, 0xA1], .popFS), ([0x0F, 0xA3, 0x6B, 0x12], .btEvGv (.mem m) .ebp),
    ([0x0F, 0xA4, 0x6B, 0x12, 0x84], .shldEvGvIb (.mem m) .ebp 0x84),
    ([0x0F, 0xA5, 0x6B, 0x12], .shldEvGvCL (.mem m) .ebp), ([0x0F, 0xA8], .pushGS), ([0x0F, 0xA9], .popGS),
    ([0x0F, 0xAB, 0x6B, 0x12], .btsEvGv (.mem m) .ebp),
    ([0x0F, 0xAC, 0x6B, 0x12, 0x84], .shrdEvGvIb (.mem m) .ebp 0x84),
    ([0x0F, 0xAD, 0x6B, 0x12], .shrdEvGvCL (.mem m) .ebp), ([0x0F, 0xAF, 0x6B, 0x12], .imulGvEv .ebp (.mem m)),
    ([0x0F, 0xB2, 0x6B, 0x12], .lssGvMp .ebp m), ([0x0F, 0xB3, 0x6B, 0x12], .btrEvGv (.mem m) .ebp),
    ([0x0F, 0xB4, 0x6B, 0x12], .lfsGvMp .ebp m), ([0x0F, 0xB5, 0x6B, 0x12], .lgsGvMp .ebp m),
    ([0x0F, 0xB6, 0x6B, 0x12], .movzxGvEb .ebp (.mem m)), ([0x0F, 0xB7, 0x6B, 0x12], .movzxGvEw .ebp (.mem m)),
    ([0x0F, 0xBA, 0x63, 0x12, 0x84], .btEvIb (.mem m) 0x84), ([0x0F, 0xBA, 0x6B, 0x12, 0x84], .btsEvIb (.mem m) 0x84),
    ([0x0F, 0xBA, 0x73, 0x12, 0x84], .btrEvIb (.mem m) 0x84),
    ([0x0F, 0xBA, 0x7B, 0x12, 0x84], .btcEvIb (.mem m) 0x84), ([0x0F, 0xBB, 0x6B, 0x12], .btcEvGv (.mem m) .ebp),
    ([0x0F, 0xBC, 0x6B, 0x12], .bsfGvEv .ebp (.mem m)), ([0x0F, 0xBD, 0x6B, 0x12], .bsrGvEv .ebp (.mem m)),
    ([0x0F, 0xBE, 0x6B, 0x12], .movsxGvEb .ebp (.mem m)),
    ([0x0F, 0xBF, 0x6B, 0x12], .movsxGvEw .ebp (.mem m))] : List (List Byte × Instr)).all decodes32 = true := by decide +kernel
/-- Register operands: mod 3 (30_encoding.md R320, R351). -/
theorem test_decode_registers : ([
    ([0x01, 0xD8], .addEvGv (.reg .eax) .ebx), ([0x28, 0xE1], .subEbGb (.reg .cl) .ah),
    ([0x8E, 0xD0], .movSwEw .ss (.reg .eax)), ([0xF7, 0xF3], .divEv (.reg .ebx)),
    ([0x0F, 0x22, 0x1E], .movCdRd 3 .esi), ([0x0F, 0xBA, 0xF0, 0x07], .btrEvIb (.reg .eax) 7)] :
    List (List Byte × Instr)).all decodes32 = true := by decide +kernel

/-- The 16-bit addressing forms (30_encoding.md R323). -/
theorem test_decode_16_bit_forms : ([
    ([0x8A, 0x00], .movGbEb .al (.mem (.m16 (.based .bxsi .none)))),
    ([0x8A, 0x0E, 0x34, 0x12], .movGbEb .cl (.mem (.m16 (.direct 0x1234)))),
    ([0x8A, 0x56, 0xFE], .movGbEb .dl (.mem (.m16 (.based .bp (.d8 0xFE))))),
    ([0x8A, 0x9F, 0x34, 0x12], .movGbEb .bl (.mem (.m16 (.based .bx (.d16 0x1234))))),
    ([0xB8, 0x34, 0x12], .movRvIv .eax 0x1234), ([0xEA, 0x34, 0x12, 0x00, 0x20], .jmpAp 0x1234 0x2000)] :
    List (List Byte × Instr)).all (fun r => reads c16 r.1 r.2) = true := by decide +kernel

/-- The SIB forms: index 4 means none, base 5 with mod 0 a doubleword displacement (30_encoding.md R322). -/
theorem test_decode_sib_forms : ([
    ([0x8B, 0x04, 0x24], .movGvEv .eax (.mem (.m32 (.sib 0 .esp .esp .none)))),
    ([0x8D, 0x44, 0xB3, 0x10], .leaGvM .eax (.m32 (.sib 2 .esi .ebx (.d8 0x10)))),
    ([0x8B, 0x0C, 0xCD, 0x78, 0x56, 0x34, 0x12], .movGvEv .ecx (.mem (.m32 (.sibNoBase 3 .ecx 0x12345678)))),
    ([0x8B, 0x84, 0x45, 0x01, 0x00, 0x00, 0x80], .movGvEv .eax (.mem (.m32 (.sib 1 .eax .ebp (.d32 0x80000001))))),
    ([0x8B, 0x05, 0x78, 0x56, 0x34, 0x12], .movGvEv .eax (.mem (.m32 (.direct 0x12345678))))] :
    List (List Byte × Instr)).all decodes32 = true := by decide +kernel

/-- Prefixes change the sizes of what follows and stand in the list of items (30_encoding.md R305, R310, R311). -/
theorem test_decode_prefixes :
    decode c32 [0x66, 0xB8, 0x34, 0x12] = .ok ([.pfxOpSize, .movRvIv .eax 0x1234], []) ∧
    decode c16 [0x67, 0x66, 0xA1, 4, 3, 2, 1] = .ok ([.pfxAddrSize, .pfxOpSize, .movEAXOv 0x01020304], []) ∧
    decode c32 [0xF3, 0x64, 0xA4] = .ok ([.pfxRep, .pfxFS, .movsb], []) := by decide +kernel

/-- Bytes that no row matches, register forms of memory operands, MOV to CS and absent segment registers are rejected
by name; a beginning of an instruction asks for more (30_encoding.md R303, R349, R355, R356). -/
theorem test_decode_undefined :
    ([[0x0F, 0x0B], [0x0F, 0x04], [0xF6, 0xC8], [0xFE, 0xD0], [0xFF, 0xF8], [0xD6], [0xF1], [0x8D, 0xC0], [0x62, 0xC3],
      [0x0F, 0x01, 0xD0], [0x0F, 0xBA, 0xC0, 1], [0x8E, 0xC8], [0x8C, 0xF0], [0x8F, 0xC8], [0xC6, 0xC8, 0],
      [0xFF, 0xD8]] : List (List Byte)).all (fun bs =>
        match decode c32 bs with
        | .error (.undefined _) => true
        | _ => false) = true ∧
    decode c32 [0x81, 0x05, 0, 0, 0, 0, 1, 2, 3] = .error .short := by decide +kernel

/-- The bit numbering of the opcode table: the first byte is the most significant one of a row's word. -/
theorem test_table_word : decodeTableWord 16 0x0FA2 = none ∧ decodeTableWord 16 0xC0C3 =
    some (.rolEbIb (.reg .bl) 0) ∧ decodeTableWord 8 0x90 = some .nop := by decide +kernel

/-! ## Start states (96_derived_vectors.md 2.0) -/

/-- `bs` stored from the physical address `a` on. -/
def poke (s : State) (a : Dword) (bs : List Byte) : State := s.storeBytes (addrsFrom a bs.length) bs

/-- A flat segment: base 0, limit FFFFFFFFH. -/
def flat (sel : Word) (typ : BitVec 4) (dpl : BitVec 2) : SegReg :=
  { sel := sel, base := 0, limit := 0xFFFFFFFF, typ := typ, s := true, dpl := dpl, p := true, db := true, g := true,
    valid := true }

/-- The tables of E32: descriptors at 1008H to 1037H, ESP0 and SS0 in the TSS at 2000H, and the gates of vectors 6, 7, 13
(to 0008H:00050100H) and 48 (the same, open to level 3). -/
def tables : List Host.Cell :=
  [(0x1008, 0xFF), (0x1009, 0xFF), (0x100D, 0x9B), (0x100E, 0xCF),
   (0x1010, 0xFF), (0x1011, 0xFF), (0x1015, 0x93), (0x1016, 0xCF),
   (0x1018, 0xFF), (0x1019, 0xFF), (0x101D, 0xFB), (0x101E, 0xCF),
   (0x1020, 0xFF), (0x1021, 0xFF), (0x1025, 0xF3), (0x1026, 0xCF),
   (0x1028, 0x67), (0x102B, 0x20), (0x102D, 0x8B),
   (0x1031, 0x01), (0x1032, 0x08), (0x1034, 0x02), (0x1035, 0xEC), (0x1036, 0x01),
   (0x2005, 0x90), (0x2008, 0x10),
   (0x3031, 0x01), (0x3032, 0x08), (0x3035, 0x8E), (0x3036, 0x05),
   (0x3039, 0x01), (0x303A, 0x08), (0x303D, 0x8E), (0x303E, 0x05),
   (0x3069, 0x01), (0x306A, 0x08), (0x306D, 0x8E), (0x306E, 0x05),
   (0x3181, 0x01), (0x3182, 0x08), (0x3185, 0xEE), (0x3186, 0x05)]

/-- E32: protected mode, level 0, flat 32-bit segments. -/
def e32 : State :=
  { State.reset with
    cr0 := 1, gdtr := { base := 0x1000, limit := 0x37 }, idtr := { base := 0x3000, limit := 0x7FF }, eip := 0x10000
    tr := { sel := 0x28, base := 0x2000, limit := 0x67, valid := true }
    gprs := { State.reset.gprs with edx := 0, esp := 0x8000 }
    mem := tables
    segs :=
      { cs := flat 8 11 0, ss := flat 0x10 3 0, ds := flat 0x10 3 0, es := flat 0x10 3 0
        fs := { SegReg.afterReset with valid := false }, gs := { SegReg.afterReset with valid := false } } }

/-- E32U: E32 entered at level 3. -/
def e32u : State :=
  { e32 with
    cpl := 3, eflags := 0x202, eip := 0x20000
    segs := { e32.segs with cs := flat 0x1B 11 3, ss := flat 0x23 3 3, ds := flat 0x23 3 3, es := flat 0x23 3 3 } }

/-- E16R: real-address mode; vector 0 leads to 5000H:0200H, vector 33 to 3000H:5678H. -/
def e16 : State :=
  { State.reset with
    eflags := 0x202, eip := 0x100, gprs := { State.reset.gprs with edx := 0, esp := 0x200 }
    segs := { State.reset.segs with cs := { SegReg.afterReset with sel := 0x1000, base := 0x10000 } }
    mem := [(1, 0x02), (3, 0x50), (0x84, 0x78), (0x85, 0x56), (0x87, 0x30)] }

/-- The segment registers of E32 and E32U are what their descriptors give, and memory is canonical. -/
theorem test_start_states :
    ([(0x08, e32.segs.cs), (0x10, e32.segs.ss), (0x1B, e32u.segs.cs), (0x23, e32u.segs.ds)] : List (Word × SegReg)).all
      (fun p => (e32.descFor p.1).map (·.toSeg p.1) == some p.2) = true ∧
    Memory.wf e32.mem = true ∧ Memory.wf e16.mem = true := by decide +kernel

/-- What `f` reads after the one step that runs the instruction `bs`. -/
def runs {α : Type} (s : State) (bs : List Byte) (f : State → α) : Option α :=
  match step (s.storeCode 0 bs) with
  | .next t => some (f t)
  | _ => none

/-- The six status flags, in their places in EFLAGS. -/
def six (s : State) : Dword := s.eflags &&& 0x8D5

/-- A word of memory. -/
def word (s : State) (a : Dword) : Word := s.valueAt 16 (addrsFrom a 2)

/-- A doubleword of memory. -/
def dword (s : State) (a : Dword) : Dword := s.valueAt 32 (addrsFrom a 4)

/-! ## Single steps: the vectors V40 to V47 and V60 of 96_derived_vectors.md -/

theorem test_V40_3_mov_ah : runs (e32.setGpr .eax 0x11223344) [0xB4, 0x55] (·.gpr .eax) = some 0x11225544 := by decide +kernel
theorem test_V40_4_mov_mem :
    runs (e32.setGpr .ebx 0x2000) [0xC7, 0x03, 0x78, 0x56, 0x34, 0x12] (dword · 0x2000) = some 0x12345678 := by decide +kernel
theorem test_V40_6_movsx : runs (e32.setGpr .ebx 0xF0) [0x0F, 0xBE, 0xC3] (·.gpr .eax) = some 0xFFFFFFF0 := by decide +kernel
theorem test_V40_5_movzx : runs (e32.setGpr .ebx 0xF0) [0x0F, 0xB6, 0xC3] (·.gpr .eax) = some 0xF0 := by decide +kernel
theorem test_V40_9_cbw : runs (e32.setGpr .eax 0x12340080) [0x66, 0x98] (·.gpr .eax) = some 0x1234FF80 := by decide +kernel
theorem test_V40_10_cdq : runs (e32.setGpr .eax 0x80000000) [0x99] (·.gpr .edx) = some 0xFFFFFFFF := by decide +kernel
theorem test_V40_13_xchg :
    runs (poke ((e32.setGpr .eax 5).setGpr .ebx 0x2000) 0x2000 [9, 0, 0, 0]) [0x87, 0x03]
      (fun s => (s.gpr .eax, dword s 0x2000)) = some (9, 5) := by decide +kernel
theorem test_V40_15_push_esp : runs e32 [0x54] (fun s => (s.gpr .esp, dword s 0x7FFC)) = some (0x7FFC, 0x8000) := by
  decide +kernel
theorem test_V40_18_push_ds : runs e32 [0x1E] (fun s => (s.gpr .esp, s.eip)) = some (0x7FFC, 0x10001) := by decide +kernel
theorem test_V40_23_pop_mem :
    runs (poke e32 0x8000 [0xDD, 0xCC, 0xBB, 0xAA]) [0x8F, 0x04, 0x24] (fun s => (s.gpr .esp, dword s 0x8004)) =
      some (0x8004, 0xAABBCCDD) := by decide +kernel
theorem test_V40_19_pusha :
    runs ((e32.setGpr .eax 1).setGpr .edi 8) [0x60]
      (fun s => (s.gpr .esp, dword s 0x7FFC, dword s 0x7FEC, dword s 0x7FE0)) = some (0x7FE0, 1, 0x8000, 8) := by decide +kernel
theorem test_V40_21_popa :
    runs (poke (e32.setGpr .esp 0x7FE0) 0x7FE0 [8, 0, 0, 0, 0, 0, 0, 0, 0, 0, 0, 0, 0xFF]) [0x61]
      (fun s => (s.gpr .esp, s.gpr .edi)) = some (0x8000, 8) := by decide +kernel
theorem test_V40_24_lea :
    runs ((e32.setGpr .ebx 0x1000).setGpr .esi 3) [0x8D, 0x44, 0xB3, 0x10] (·.gpr .eax) = some 0x101C := by decide +kernel
theorem test_V40_26_xlat :
    runs (poke ((e32.setGpr .ebx 0x3000).setGpr .eax 2) 0x3002 [0x5A]) [0xD7] (·.gpr .eax) = some 0x5A := by decide +kernel
theorem test_V40_27_lss :
    runs (poke (e32.setGpr .ebx 0x2000) 0x2000 [0, 0x90, 0, 0, 0x10, 0]) [0x0F, 0xB2, 0x23]
      (fun s => (s.gpr .esp, s.segs.ss.sel, s.inhibitSS)) = some (0x9000, 0x10, false) := by decide +kernel
theorem test_V40_28_mov_ds_real :
    runs (e16.setGpr .eax 0x2345) [0x8E, 0xD8] (fun s => (s.segs.ds.sel, s.segs.ds.base, s.segs.ds.limit)) =
      some (0x2345, 0x23450, 0xFFFF) := by decide +kernel
/-- A segment fault is taken through gate 13: the handler runs, with an error code on its frame. -/
theorem test_V40_34_mov_ds_privilege :
    runs (e32.setGpr .eax 0x13) [0x8E, 0xD8] (fun s => (s.eip, s.gpr .esp, s.segs.ds.sel)) =
      some (0x50100, 0x7FF0, 0x10) := by decide +kernel

theorem test_V41_1_add :
    runs ((e32.setGpr .eax 0x7FFFFFFF).setGpr .ebx 1) [0x01, 0xD8] (fun s => (s.gpr .eax, six s)) =
      some (0x80000000, 0x894) := by decide +kernel
theorem test_V41_5_adc :
    runs ((e32.setGpr .eax 0xFFFFFFFF).putFlag 0 true) [0x11, 0xD8] (fun s => (s.gpr .eax, six s)) =
      some (0, 0x55) := by decide +kernel
theorem test_V41_7_sub : runs (e32.setGpr .ebx 1) [0x29, 0xD8] (fun s => (s.gpr .eax, six s)) =
    some (0xFFFFFFFF, 0x95) := by decide +kernel
theorem test_V41_9_sbb : runs ((e32.setGpr .ebx 0xFFFFFFFF).putFlag 0 true) [0x19, 0xD8]
    (fun s => (s.gpr .eax, six s)) = some (0, 0x55) := by decide +kernel
theorem test_V41_11_cmp : runs (e32.setGpr .eax 0x7F) [0x3C, 0x80] (fun s => (s.gpr .eax, six s)) =
    some (0x7F, 0x885) := by decide +kernel
theorem test_V41_12_inc : runs ((e32.setGpr .eax 0x7FFFFFFF).putFlag 0 true) [0x40] (fun s => (s.gpr .eax, six s)) =
    some (0x80000000, 0x895) := by decide +kernel
theorem test_V41_16_dec : runs e32 [0x49] (fun s => (s.gpr .ecx, six s)) = some (0xFFFFFFFF, 0x94) := by decide +kernel
theorem test_V41_19_neg : runs (e32.setGpr .eax 0x80000000) [0xF7, 0xD8] (fun s => (s.gpr .eax, six s)) =
    some (0x80000000, 0x885) := by decide +kernel
theorem test_V41_20_mul : runs ((e32.setGpr .eax 0xFFFFFFFF).setGpr .ebx 2) [0xF7, 0xE3]
    (fun s => (s.gpr .edx, s.gpr .eax)) = some (1, 0xFFFFFFFE) := by decide +kernel
theorem test_V41_23_imul : runs ((e32.setGpr .eax 0xFFFFFFFF).setGpr .ebx 2) [0xF7, 0xEB]
    (fun s => (s.gpr .edx, s.gpr .eax)) = some (0xFFFFFFFF, 0xFFFFFFFE) := by decide +kernel
theorem test_V41_26_imul_ib : runs (e32.setGpr .ebx 5) [0x6B, 0xC3, 0xFE] (·.gpr .eax) = some 0xFFFFFFF6 := by decide +kernel
theorem test_V41_28_div : runs ((e32.setGpr .eax 7).setGpr .ebx 2) [0xF7, 0xF3] (fun s => (s.gpr .eax, s.gpr .edx)) =
    some (3, 1) := by decide +kernel
theorem test_V41_32_idiv :
    runs (((e32.setGpr .eax 0xFFFFFFF9).setGpr .edx 0xFFFFFFFF).setGpr .ebx 2) [0xF7, 0xFB]
      (fun s => (s.gpr .eax, s.gpr .edx)) = some (0xFFFFFFFD, 0xFFFFFFFF) := by decide +kernel
theorem test_V60_1_div_by_zero :
    runs e16 [0xF6, 0xF3] (fun s => (word s 0x1FE, word s 0x1FC, word s 0x1FA, s.gpr .esp, s.segs.cs.base, s.eip, s.eflags)) =
      some (0x202, 0x1000, 0x100, 0x1FA, 0x50000, 0x200, 2) := by decide +kernel
theorem test_V41_37_daa : runs (e32.setGpr .eax 0x3C) [0x27] (·.gpr .eax) = some 0x42 := by decide +kernel
theorem test_V41_40_das : runs (((e32.setGpr .eax 0xEE).putFlag 0 true).putFlag 4 true) [0x2F] (·.gpr .eax) =
    some 0x88 := by decide +kernel
theorem test_V41_44_aaa : runs (e32.setGpr .eax 0xFF0A) [0x37] (·.gpr .eax) = some 0 := by decide +kernel
theorem test_V41_47_aas : runs ((e32.setGpr .eax 3).putFlag 4 true) [0x3F] (·.gpr .eax) = some 0xFF0D := by decide +kernel
theorem test_V41_49_aam : runs (e32.setGpr .eax 0xFF) [0xD4, 0x0A] (·.gpr .eax) = some 0x1905 := by decide +kernel
theorem test_V41_52_aad : runs (e32.setGpr .eax 0xFFFF) [0xD5, 0x0A] (·.gpr .eax) = some 0xF5 := by decide +kernel

theorem test_V42_1_and : runs ((e32.setGpr .eax 0xF0F0F0F0).setGpr .ebx 0x0FF00FF0) [0x21, 0xD8] (·.gpr .eax) =
    some 0x00F000F0 := by decide +kernel
theorem test_V42_2_or : runs ((e32.setGpr .eax 0xF0F0F0F0).setGpr .ebx 0x0F0F0F0F) [0x09, 0xD8] (·.gpr .eax) =
    some 0xFFFFFFFF := by decide +kernel
theorem test_V42_3_xor : runs (e32.setGpr .eax 0x12345678) [0x31, 0xC0] (·.gpr .eax) = some 0 := by decide +kernel
theorem test_V42_4_not : runs (e32.setGpr .eax 0xFFFF) [0xF7, 0xD0] (fun s => (s.gpr .eax, s.eflags)) =
    some (0xFFFF0000, 2) := by decide +kernel
theorem test_V42_6_shl : runs (e32.setGpr .eax 0xABCD) [0xC1, 0xE0, 0x10] (·.gpr .eax) = some 0xABCD0000 := by decide +kernel
theorem test_V42_12_shl_masked : runs ((e32.setGpr .eax 0x12345678).setGpr .ecx 0x20) [0xD3, 0xE0]
    (fun s => (s.gpr .eax, s.eflags)) = some (0x12345678, 2) := by decide +kernel
theorem test_V42_9_shr : runs (poke (e32.setGpr .ebx 0x2000) 0x2000 [0x2E]) [0xC1, 0x2B, 0x02] (dword · 0x2000) =
    some 0xB := by decide +kernel
theorem test_V42_14_sar : runs (e32.setGpr .eax 0x80000001) [0xD1, 0xF8] (·.gpr .eax) = some 0xC0000000 := by decide +kernel
theorem test_V42_17_rol : runs (e32.setGpr .eax 0x81) [0xD0, 0xC0] (fun s => (s.gpr .eax, six s)) =
    some (3, 0x801) := by decide +kernel
theorem test_V42_19_ror : runs (e32.setGpr .eax 1) [0xD0, 0xC8] (fun s => (s.gpr .eax, six s)) =
    some (0x80, 0x801) := by decide +kernel
theorem test_V42_22_rcl : runs ((e32.setGpr .eax 0x80000000).putFlag 0 true) [0xD1, 0xD0]
    (fun s => (s.gpr .eax, six s)) = some (1, 0x801) := by decide +kernel
theorem test_V42_23_rcr : runs ((e32.setGpr .eax 1).putFlag 0 true) [0xD0, 0xD8] (fun s => (s.gpr .eax, six s)) =
    some (0x80, 0x801) := by decide +kernel
theorem test_V42_25_shld : runs ((e32.setGpr .eax 0x12345678).setGpr .ebx 0x9ABCDEF0) [0x0F, 0xA4, 0xD8, 4]
    (·.gpr .eax) = some 0x23456789 := by decide +kernel
theorem test_V42_27_shrd : runs ((e32.setGpr .eax 0x12345678).setGpr .ebx 0x9ABCDEF0) [0x0F, 0xAC, 0xD8, 4]
    (·.gpr .eax) = some 0x01234567 := by decide +kernel
theorem test_V42_31_bts : runs ((e32.setGpr .esi 0x4000).setGpr .ebx 0x23) [0x0F, 0xAB, 0x1E] (dword · 0x4004) =
    some 8 := by decide +kernel
theorem test_V42_32_btr : runs (e32.setGpr .eax 0xFF) [0x0F, 0xBA, 0xF0, 7] (·.gpr .eax) = some 0x7F := by decide +kernel
theorem test_V42_33_btc : runs e32 [0x0F, 0xBA, 0xF8, 0x1F] (·.gpr .eax) = some 0x80000000 := by decide +kernel
theorem test_V42_35_bsf : runs (e32.setGpr .ebx 0x18000) [0x0F, 0xBC, 0xC3] (·.gpr .eax) = some 15 := by decide +kernel
theorem test_V42_36_bsr : runs (e32.setGpr .ebx 0x18000) [0x0F, 0xBD, 0xC3] (·.gpr .eax) = some 16 := by decide +kernel
theorem test_V42_39_setl : runs (e32.putFlag 7 true) [0x0F, 0x9C, 0xC0] (·.gpr .eax) = some 1 := by decide +kernel

theorem test_V43_1_jmp : runs e32 [0xEB, 0xFE] (·.eip) = some 0x10000 := by decide +kernel
theorem test_V43_3_jmp_16 : runs { e32 with eip := 0x12345 } [0x66, 0xE9, 0xFD, 0xFF] (·.eip) = some 0x2346 := by decide +kernel
theorem test_V43_4_jnz : runs e32 [0x75, 0x10] (·.eip) = some 0x10012 ∧
    runs (e32.putFlag 6 true) [0x75, 0x10] (·.eip) = some 0x10002 := by decide +kernel
theorem test_V43_8_jcxz : runs (e32.setGpr .ecx 0x10000) [0x67, 0xE3, 0x10] (·.eip) = some 0x10013 := by decide +kernel
theorem test_V43_11_loop : runs (e32.setGpr .ecx 0x50001) [0x67, 0xE2, 0xFD] (fun s => (s.eip, s.gpr .ecx)) =
    some (0x10003, 0x50000) := by decide +kernel
theorem test_V43_13_loopne : runs (e32.setGpr .ecx 5) [0xE0, 0xFE] (fun s => (s.eip, s.gpr .ecx)) =
    some (0x10000, 4) := by decide +kernel
theorem test_V43_12_loope : runs (e32.setGpr .ecx 5) [0xE1, 0xFE] (fun s => (s.eip, s.gpr .ecx)) =
    some (0x10002, 4) := by decide +kernel
theorem test_V43_14_call : runs e32 [0xE8, 0x10, 0, 0, 0] (fun s => (s.eip, s.gpr .esp, dword s 0x7FFC)) =
    some (0x10015, 0x7FFC, 0x10005) := by decide +kernel
theorem test_V43_16_ret : runs (poke (e32.setGpr .esp 0x7FFC) 0x7FFC [5, 0, 1, 0]) [0xC2, 8, 0]
    (fun s => (s.eip, s.gpr .esp)) = some (0x10005, 0x8008) := by decide +kernel
theorem test_V43_19_jmp_far : runs e16 [0xEA, 0x34, 0x12, 0x00, 0x20] (fun s => (s.segs.cs.base, s.eip)) =
    some (0x20000, 0x1234) := by decide +kernel
theorem test_V43_20_call_far : runs e16 [0x9A, 0x34, 0x12, 0x00, 0x20]
    (fun s => (s.segs.cs.sel, s.eip, s.gpr .esp)) = some (0x2000, 0x1234, 0x1FC) := by decide +kernel
theorem test_V43_21_retf : runs (poke (e16.setGpr .esp 0x1FC) 0x1FC [0x05, 0x01, 0x00, 0x10]) [0xCB]
    (fun s => (s.segs.cs.base, s.eip, s.gpr .esp)) = some (0x10000, 0x105, 0x200) := by decide +kernel
theorem test_V43_22_int : runs e16 [0xCD, 0x21]
    (fun s => (word s 0x1FE, word s 0x1FC, word s 0x1FA, s.segs.cs.sel, s.eip, s.if')) =
      some (0x202, 0x1000, 0x102, 0x3000, 0x5678, false) := by decide +kernel
theorem test_V43_23_iret :
    runs (poke (e16.setGpr .esp 0x1FA) 0x1FA [0x02, 0x01, 0x00, 0x10, 0x02, 0x02]) [0xCF]
      (fun s => (s.segs.cs.sel, s.eip, s.gpr .esp, s.eflags)) = some (0x1000, 0x102, 0x200, 0x202) := by decide +kernel
theorem test_V43_26_bound : runs (poke ((e32.setGpr .ebx 0x4000).setGpr .eax 9) 0x4004 [9]) [0x62, 0x03] (·.eip) =
    some 0x10002 := by decide +kernel
theorem test_V43_32_enter : runs (poke (e32.setGpr .ebp 0x9000) 0x8FFC [1, 0, 0xAA, 0xAA]) [0xC8, 8, 0, 2]
    (fun s => (dword s 0x7FF8, dword s 0x7FF4, s.gpr .ebp, s.gpr .esp)) =
      some (0xAAAA0001, 0x7FFC, 0x7FFC, 0x7FEC) := by decide +kernel
theorem test_V43_33_leave : runs (poke ((e32.setGpr .esp 0x7FF4).setGpr .ebp 0x7FFC) 0x7FFC [0, 0x90]) [0xC9]
    (fun s => (s.gpr .esp, s.gpr .ebp)) = some (0x8000, 0x9000) := by decide +kernel
/-- A call through a gate to an inner level: the stack of level 0 from the TSS, two parameters copied. -/
theorem test_V43_38_call_gate :
    runs (poke e32u 0x8000 [0x11, 0x11, 0x11, 0x11, 0x22, 0x22, 0x22, 0x22]) [0x9A, 0, 0, 0, 0, 0x33, 0]
      (fun s => (s.cpl, s.segs.cs.sel, s.eip, s.segs.ss.sel, s.gpr .esp)) = some (0, 8, 0x10100, 0x10, 0x8FE8) := by decide +kernel

theorem test_V44_1_movsb : runs (poke ((e32.setGpr .esi 0x4000).setGpr .edi 0x5000) 0x4000 [0x41]) [0xA4]
    (fun s => (word s 0x5000, s.gpr .esi, s.gpr .edi)) = some (0x41, 0x4001, 0x5001) := by decide +kernel
theorem test_V44_5_rep_movsb :
    runs (poke (((e32.setGpr .esi 0x4000).setGpr .edi 0x5000).setGpr .ecx 3) 0x4000 [0x41]) [0xF3, 0xA4]
      (fun s => (s.gpr .ecx, s.eip, s.gpr .esi)) = some (2, 0x10000, 0x4001) := by decide +kernel
theorem test_V44_10_cmpsb :
    runs (poke (poke ((e32.setGpr .esi 0x4000).setGpr .edi 0x5000) 0x4000 [3]) 0x5000 [5]) [0xA6] six =
      some 0x91 := by decide +kernel
theorem test_V44_12_scasb : runs (poke ((e32.setGpr .eax 0x35).setGpr .edi 0x5000) 0x5000 [0x47]) [0xAE]
    (fun s => (six s, s.gpr .edi)) = some (0x95, 0x5001) := by decide +kernel
theorem test_V44_14_lodsb : runs (poke ((e32.setGpr .eax 0xFFFFFF00).setGpr .esi 0x4000) 0x4000 [0x7E]) [0xAC]
    (fun s => (s.gpr .eax, s.gpr .esi)) = some (0xFFFFFF7E, 0x4001) := by decide +kernel
theorem test_V44_15_stosd : runs (((e32.setGpr .eax 0x01020304).setGpr .edi 0x5000).putFlag 10 true) [0xAB]
    (fun s => (dword s 0x5000, s.gpr .edi)) = some (0x01020304, 0x4FFC) := by decide +kernel
theorem test_V44_17_out : runs (e32.setGpr .eax 0x5A) [0xE6, 0xE4] (·.ioLog) = some [.portWrite 0xE4 1 0x5A] := by decide +kernel
theorem test_V44_29_outsb :
    runs (poke ((e32u.setGpr .edx 0x28).setGpr .esi 0x4000) 0x2066 [0x68, 0, 0, 0, 0, 0, 0, 0x02, 0, 0xFF]) [0x6E]
      (fun s => (s.eip, s.gpr .esi)) = some (0x50100, 0x4000) := by decide +kernel
theorem test_V44_20_in_refused :
    runs { e32u with tr := { e32u.tr with limit := 0x87 } } [0xE4, 0x29] (fun s => (s.eip, s.cpl)) =
      some (0x20002, 3) := by decide +kernel

theorem test_V45_3_lahf : runs { e32 with eflags := 0x93 } [0x9F] (·.reg8 .ah) = some 0x93 := by decide +kernel
theorem test_V45_4_sahf : runs (e32.setReg8 .ah 0xFF) [0x9E] (·.eflags) = some 0xD7 := by decide +kernel
theorem test_V45_5_pushf : runs { e32 with eflags := 0x10246 } [0x9C] (dword · 0x7FFC) = some 0x246 := by decide +kernel
theorem test_V45_7_popf : runs (poke e32u 0x8000 [0x03, 0x30]) [0x9D] (·.eflags) = some 0x203 := by decide +kernel
theorem test_V45_9_cli_user : runs e32u [0xFA] (fun s => (s.eip, s.cpl, s.gpr .esp)) =
    some (0x50100, 0, 0x8FE8) := by decide +kernel
theorem test_V45_10_cli : runs { e32u with eflags := 0x3202 } [0xFA] (·.eflags) = some 0x3002 := by decide +kernel
theorem test_V45_13_sti : runs e32 [0xFB] (fun s => (s.if', s.inhibitSTI)) = some (true, true) := by decide +kernel
theorem test_V45_15_hlt : runs e32 [0xF4] (fun s => (s.run, s.eip)) = some (.halted, 0x10001) := by decide +kernel
theorem test_V45_1_cmc : runs e32 [0xF5] (·.eflags) = some 3 := by decide +kernel
theorem test_V45_2_std : runs e32 [0xFD] (·.eflags) = some 0x402 := by decide +kernel
theorem test_V45_18_esc : runs { e32 with cr0 := 5 } [0xD8, 0xC1] (fun s => (s.eip, s.gpr .esp)) =
    some (0x50100, 0x7FF4) := by decide +kernel
theorem test_V45_19_wait : runs { e32 with cr0 := 9 } [0x9B] (·.eip) = some 0x10001 := by decide +kernel

theorem test_V46_2_lgdt_16 : runs (poke (e32.setGpr .ebx 0x4000) 0x4000 [0x3F, 0, 0, 0x10, 0, 0xAB]) [0x66, 0x0F, 0x01, 0x13]
    (·.gdtr) = some ⟨0x1000, 0x3F⟩ := by decide +kernel
theorem test_V46_3_sgdt : runs (e32.setGpr .ebx 0x4000) [0x0F, 0x01, 0x03] (fun s => (word s 0x4000, dword s 0x4002)) =
    some (0x37, 0x1000) := by decide +kernel
theorem test_V46_8_mov_cr0 : runs (e32.setGpr .eax 0x11) [0x0F, 0x22, 0xC0] (·.cr0) = some 0x11 := by decide +kernel
theorem test_V46_7_mov_cr0_pg : runs (e16.setGpr .eax 0x80000000) [0x0F, 0x22, 0xC0] (fun s => (s.cr0, word s 0x1FA)) =
    some (0, 0x100) := by decide +kernel
theorem test_V46_12_lmsw : runs e32 [0x0F, 0x01, 0xF0] (·.cr0) = some 1 := by decide +kernel
theorem test_V46_14_clts : runs { e32 with cr0 := 9 } [0x0F, 0x06] (·.cr0) = some 1 := by decide +kernel
theorem test_V46_16_lar : runs (e32.setGpr .ebx 0x10) [0x66, 0x0F, 0x02, 0xD3] (fun s => (s.gpr .edx, s.zf)) =
    some (0x9300, true) := by decide +kernel
theorem test_V46_19_lsl : runs (e32.setGpr .ebx 0x10) [0x0F, 0x03, 0xC3] (fun s => (s.gpr .eax, s.zf)) =
    some (0xFFFFFFFF, true) := by decide +kernel
theorem test_V46_24_arpl : runs ((e32.setGpr .eax 8).setGpr .ebx 3) [0x63, 0xD8] (fun s => (s.gpr .eax, s.zf)) =
    some (0xB, true) := by decide +kernel
theorem test_V46_26_verr : runs (e32u.setGpr .eax 0x23) [0x0F, 0x00, 0xE0] (·.zf) = some true := by decide +kernel
theorem test_V46_27_verw : runs ((e32u.setGpr .eax 0x1B).putFlag 6 true) [0x0F, 0x00, 0xE8] (·.zf) = some false := by
  decide +kernel
theorem test_V46_32_lldt : runs e32 [0x0F, 0x00, 0xD0] (fun s => (s.ldtr.sel, s.ldtr.valid)) = some (0, false) := by decide +kernel
theorem test_V47_1_ltr : runs (poke (e32.setGpr .eax 0x28) 0x102D [0x89]) [0x0F, 0x00, 0xD8]
    (fun s => (s.tr.sel, s.tr.base, s.byteAt 0x102D)) = some (0x28, 0x2000, 0x8B) := by decide +kernel
theorem test_V46_31_str : runs e32 [0x66, 0x0F, 0x00, 0xC8] (·.gpr .eax) = some 0x28 := by decide +kernel

/-- The single-step trap waits for the next boundary, with DR6.BS set. -/
theorem test_V60_13_single_step : runs { e32 with eflags := 0x102 } [0x90]
    (fun s => (s.trapPending, s.dr6.getLsbD 14, s.eip)) = some (true, true, 0x10001) := by decide +kernel
/-- LOCK before NOP is an invalid opcode, taken at the prefix. -/
theorem test_V60_20_lock_nop : runs e32 [0xF0, 0x90] (fun s => (s.eip, s.gpr .esp)) = some (0x50100, 0x7FF4) := by
  decide +kernel
/-- What the environment has seen of device memory: reading or writing, and the addresses. -/
def deviceSeen {α : Type} (r : EStateM.Result Stop Tx α) : List (Bool × List Nat) :=
  let log := match r with
    | .ok _ t => t.base.ioLog
    | .error _ t => t.base.ioLog
  log.filterMap fun e =>
    match e with
    | .deviceRead c => some (false, c.map (·.1))
    | .deviceWrite c => some (true, c.map (·.1))
    | _ => none

/-- A descriptor in a device region is read as two doublewords (R174, R147). -/
theorem test_R174_two_doublewords :
    let s := { e32 with physMap := [{ base := 0x1000, size := 0x100, kind := .device }] }
    deviceSeen (fetchDesc 0x10 { cur := s, base := s, ext := false }) =
      [(false, [0x1010, 0x1011, 0x1012, 0x1013]), (false, [0x1014, 0x1015, 0x1016, 0x1017])] := by decide +kernel

/-- Marking a page-table entry is a write of 4 bytes: the environment sees those in a device region, the lowest byte in
RAM changes (R230, R147). -/
theorem test_R230_entry_partly_device :
    let s := { e32 with physMap := [{ base := 0x4001, size := 2, kind := .device }] }
    let r := markEntry 0x4000 0x5007 0x60 { cur := s, base := s, ext := false }
    deviceSeen r = [(true, [0x4001, 0x4002])] ∧
      (match r with | .ok _ t => t.base.byteAt 0x4000 | .error _ _ => 0) = 0x60 := by decide +kernel

/-- The offset of a far pointer is read before the selector is checked: a limit that holds only the offset faults after one
device read; inside the limit there are two (R418, R147). -/
theorem test_R418_two_reads :
    let at_ (limit : Dword) : State :=
      { e32.setGpr .ebx 0x4000 with
        physMap := [{ base := 0x4000, size := 16, kind := .device }]
        segs := { e32.segs with ds := { e32.segs.ds with limit := limit } } }
    let read (s : State) := readFar 32 (.m32 (.based .ebx .none)) { cur := s, base := s, ext := false }
    deviceSeen (read (at_ 0x4004)) = [(false, [0x4000, 0x4001, 0x4002, 0x4003])] ∧
      deviceSeen (read (at_ 0x4005)) = [(false, [0x4000, 0x4001, 0x4002, 0x4003]), (false, [0x4004, 0x4005])] := by
  decide +kernel

/-- SGDT stores limit and base as two writes (R774, R147). -/
theorem test_R774_two_writes :
    let s : State := { e32.setGpr .ebx 0x4000 with physMap := [{ base := 0x4000, size := 16, kind := .device }] }
    deviceSeen (storeTable (.m32 (.based .ebx .none)) s.gdtr { cur := s, base := s, ext := false }) =
      [(true, [0x4000, 0x4001]), (true, [0x4002, 0x4003, 0x4004, 0x4005])] := by decide +kernel

/-- The linear address 00403ABCH through two table levels (V20.15). -/
theorem test_V20_15_paging :
    runs (poke (poke { e32 with cr0 := 0x80000001, cr3 := 0x00100000, segs := { e32.segs with
        cs := { e32.segs.cs with base := 0x00400000 } }, eip := 0x3ABC }
        0x00100004 [0x07, 0x20]) 0x200C [0x07, 0xC0, 0xAB, 0x00]) [0x90]
      (fun s => (s.eip, dword s 0x00100004, dword s 0x200C)) = some (0x3ABD, 0x2027, 0x00ABC027) := by decide +kernel

/-! ## Witnesses: the hypotheses of each obligation hold together -/

/-- An outcome is a next state. -/
def isNext : Outcome → Bool
  | .next _ => true
  | _ => false

/-- A next state stands behind `isNext`. -/
theorem exists_next {o : Outcome} (h : isNext o = true) : ∃ t, o = .next t := by
  cases o with
  | next t => exact ⟨t, rfl⟩
  | fault f => exact absurd h (by simp [isNext])
  | refused r => exact absurd h (by simp [isNext])

/-- A decidable fact about each member of a list. -/
theorem of_all {α : Type} {p : α → Prop} [DecidablePred p] {l : List α} (h : (l.all fun a => decide (p a)) = true) :
    ∀ a ∈ l, p a := fun a ha => of_decide_eq_true (List.all_eq_true.mp h a ha)

/-- The memory operand [EBX]. -/
def mB : Mem := .m32 (.based .ebx .none)

/-- E32 with EBX at a free place. -/
def w32 : State := e32.setGpr .ebx 0x4000

/-- With LOCK seen. -/
def locked (s : State) : State := { s with ctx := { s.ctx with lock := true } }

/-- With a repeat prefix seen. -/
def repeated (s : State) (k : RepKind) : State := { s with ctx := { s.ctx with rep := some k } }

/-- E32 with more descriptors: an 80286 TSS at 38H, an 80286 call gate at 40H, an LDT at 48H, a free TSS at 50H, conforming
code of level 0 at 58H. -/
def g32 : State :=
  poke { w32 with gdtr := { base := 0x1000, limit := 0x5F } } 0x1038
    [0x2B, 0, 0, 0x60, 0, 0x81, 0, 0, 0, 1, 8, 0, 0, 0x84, 0, 0, 0x1F, 0, 0, 0x70, 0, 0x82, 0, 0,
      0x67, 0, 0, 0x21, 0, 0x89, 0, 0, 0xFF, 0xFF, 0, 0, 0, 0x9F, 0xCF, 0]

/-- E32 with paging: page directory at 100000H, one table at 2000H: 00403H to frame ABCH open to all, 00404H absent,
00405H for the supervisor alone, 00406H read-only. -/
def p32 : State :=
  poke (poke { e32 with cr0 := 0x80000001, cr3 := 0x00100000 } 0x00100004 [0x07, 0x20]) 0x200C
    [0x07, 0xC0, 0xAB, 0x00, 0x06, 0xC0, 0xAB, 0x00, 0x03, 0xC0, 0xAB, 0x00, 0x05, 0xC0, 0xAB, 0x00]

/-- Immediates and displacements at the largest value their size holds, and a SIB form. -/
theorem witness_DecodeOfEncode :
    Instr.wf c16 (.pushIv 0xFFFF) = true ∧ Instr.wf c32 (.pushIv 0xFFFFFFFF) = true ∧
    Instr.wf c32 (.addEvIv (.mem (.m32 (.sib 3 .edi .ebp (.d32 0xFFFFFFFF)))) 0) = true ∧
    Instr.wf { c16 with ad67 := true } (.movALOb 0xFFFFFFFF) = true := by decide +kernel

/-- A NOP alone, and after fourteen prefixes: the longest instruction. -/
theorem witness_StepRunsDecodedInstruction :
    let s := (poke e32 0x10000 [0x90])
    s.resetPin = false ∧ s.run = .running ∧ s.pendingEvent = none ∧ s.codeReady [0x90] ∧
    decode s.decodeCtx [0x90] = .ok ([.nop], []) := by
  unfold State.codeReady
  decide +kernel

theorem witness_StepRunsDecodedInstruction_longest :
    let bs : List Byte := List.replicate 14 0x66 ++ [0x90]
    let s := (poke e32 0x10000 bs)
    s.resetPin = false ∧ s.run = .running ∧ s.pendingEvent = none ∧ s.codeReady bs ∧
    decode s.decodeCtx bs = .ok (List.replicate 14 .pfxOpSize ++ [.nop], []) := by
  unfold State.codeReady
  decide +kernel

theorem witness_PrefixesAndLock :
    prefixNote .pfxLock = some (fun c => { c with lock := true }) ∧
    prefixNote .pfxGS = some (fun c => { c with seg := some .gs }) ∧
    prefixNote .pfxRepne = some (fun c => { c with rep := some .repne }) ∧
    (locked e32).ctx.lock = true ∧ lockable .nop = false ∧ lockable (.addEvGv (.reg .eax) .ebx) = false ∧
    lockable (.addEvGv (.mem mB) .ebx) = true ∧ prefixNote .nop = none ∧ prefixNote (.addEvGv (.reg .eax) .ebx) = none :=
  ⟨rfl, rfl, rfl, rfl, rfl, rfl, rfl, rfl, rfl⟩

theorem witness_ResetRequestServed : ({ e32 with resetPin := true } : State).resetPin = true := rfl

theorem witness_StepKeepsInvariant : ∃ s t : State, s.Inv ∧ s.levelLegal ∧ step s = .next t := by
  obtain ⟨t, h⟩ := exists_next (o := step e32) (by decide +kernel)
  exact ⟨e32, t, by unfold State.Inv; decide +kernel, by unfold State.levelLegal; decide +kernel, h⟩

theorem witness_StepKeepsRealModeLevel : ∃ s t : State, s.pe = false ∧ s.levelLegal ∧ step s = .next t := by
  obtain ⟨t, h⟩ := exists_next (o := step e16) (by decide +kernel)
  exact ⟨e16, t, rfl, by unfold State.levelLegal; decide +kernel, h⟩

theorem witness_StepExtendsHistory : ∃ s t : State, step s = .next t :=
  ⟨e32, exists_next (by decide +kernel)⟩

/-- Across the top of the address space, and no bytes at all. -/
theorem witness_StoredValueReadsBack :
    Memory.wf e32.mem = true ∧ 4 ≤ 2 ^ 32 ∧
    (∀ pa ∈ addrsFrom 0xFFFFFFFE 4, e32.kindAt pa.toNat = .ram) ∧
    (∀ pa ∈ addrsFrom 0xFFFFFFFE 0, e32.kindAt pa.toNat = .ram) :=
  ⟨by decide +kernel, by decide +kernel, of_all (by decide +kernel), of_all (by decide +kernel)⟩

/-- The last allowed and the first refused offsets, upward and downward (V20.11, V20.12). -/
theorem witness_LimitCheckIsBytewise :
    let up : SegReg := { flat 0 3 0 with limit := 0x10 }
    let down : SegReg := { flat 0 7 0 with limit := 0xFFF }
    up.inLimit 0x10 1 = true ∧ up.inLimit 0x11 1 = false ∧ up.inLimit 0xD 4 = true ∧ up.inLimit 0xE 4 = false ∧
    down.inLimit 0xFFF 1 = false ∧ down.inLimit 0x1000 1 = true ∧ down.inLimit 0xFFFFFFFC 4 = true ∧
    down.inLimit 0xFFFFFFFD 4 = false ∧ ({ down with db := false } : SegReg).inLimit 0xFFFE 2 = true ∧
    ({ down with db := false } : SegReg).inLimit 0xFFFF 2 = false := by decide +kernel

/-- A null segment, a store through CS, and a word at FFFFH through SS and DS. -/
theorem witness_SegmentChecksFault :
    (e32.seg .fs).valid = false ∧
    ((e32.seg .cs).valid = true ∧ ((e32.seg .cs).allows true || (Sreg.cs == .cs && !e32.pe)) = false) ∧
    ((e16.seg .ss).valid = true ∧ ((e16.seg .ss).allows true || (Sreg.ss == .cs && !e16.pe)) = true ∧
      (e16.seg .ss).inLimit 0xFFFF 2 = false ∧ (e16.seg .ss).inLimit 0xFFFE 2 = true) ∧
    ((e16.seg .ds).valid = true ∧ ((e16.seg .ds).allows false || (Sreg.ds == .cs && !e16.pe)) = true ∧
      (e16.seg .ds).inLimit 0xFFFF 2 = false) := by decide +kernel

theorem witness_PageTablesTranslate :
    let la : Dword := 0x00403ABC
    (p32.ramD (p32.pdeAt la) ∧ p32.ramD (p32.pteAt la)) ∧
    Memory.wf p32.mem = true ∧ p32.pg = true ∧ p32.tlbDup.contains (tlbTag la) = false ∧ p32.tlbHits la = [] ∧
    p32.pdeAt la ≠ p32.pteAt la ∧
    (p32.pde la).getLsbD 0 = true ∧ (p32.pte la).getLsbD 0 = true ∧ p32.pageForbids la true true = false :=
  ⟨⟨of_all (by decide +kernel), of_all (by decide +kernel)⟩, by decide +kernel⟩

/-- No page table; no page; a user access to a supervisor page, and a user store to a read-only one. -/
theorem witness_PageFaultCodes :
    (∀ la ∈ [0x0#32, 0x00404000, 0x00405000, 0x00406000], p32.ramD (p32.pdeAt la) ∧ p32.ramD (p32.pteAt la)) ∧
    (∀ la ∈ [0x0#32, 0x00404000, 0x00405000, 0x00406000], p32.pg = true ∧
      p32.tlbDup.contains (tlbTag la) = false ∧ p32.tlbHits la = []) ∧
    (p32.pde 0).getLsbD 0 = false ∧
    ((p32.pde 0x00404000).getLsbD 0 = true ∧ (p32.pte 0x00404000).getLsbD 0 = false) ∧
    ((p32.pde 0x00405000).getLsbD 0 = true ∧ (p32.pte 0x00405000).getLsbD 0 = true ∧
      p32.pageForbids 0x00405000 false true = true) ∧
    ((p32.pde 0x00406000).getLsbD 0 = true ∧ (p32.pte 0x00406000).getLsbD 0 = true ∧
      p32.pageForbids 0x00406000 true true = true ∧ p32.pageForbids 0x00406000 false true = false) := by
  refine ⟨?_, of_all (by decide +kernel), by decide +kernel⟩
  have h : ∀ la ∈ [0x0#32, 0x00404000, 0x00405000, 0x00406000],
      ((addrsFrom (p32.pdeAt la) 4 ++ addrsFrom (p32.pteAt la) 4).all fun a => p32.kindAt a.toNat == .ram) = true :=
    of_all (by decide +kernel)
  refine fun la hl => ⟨fun a ha => ?_, fun a ha => ?_⟩
  · exact beq_iff_eq.mp (List.all_eq_true.mp (h la hl) a (List.mem_append_left _ ha))
  · exact beq_iff_eq.mp (List.all_eq_true.mp (h la hl) a (List.mem_append_right _ ha))

theorem witness_PartialRegisters : Reg8.ah ≠ Reg8.al ∧ Gpr.ecx ≠ (Reg8.home .al).1 := by decide +kernel

/-- A width above 0: the largest byte sums and differences. -/
theorem witness_SumAndDifferenceFlags :
    0 < 8 ∧ (addFlags 0xFF#8 0xFF#8 true).1 = 0xFF#8 ∧ (addFlags 0x7F#8 0#8 true).2.of = true ∧
    (subFlags 0#8 0xFF#8 true).2.cf = true ∧ (subFlags 0x80#8 0#8 true).2.of = true := by decide +kernel

/-- A locked addition to memory, and a register with a sign-extended immediate. -/
theorem witness_BinaryOperations :
    (binary8 (.addEbIb (.mem mB) 1) = some (.add, .mem mB, .imm 1) ∧ isMem (RM.mem mB : RM Reg8) = true ∧
      (locked w32).ok8 (.mem mB) true = true ∧ (locked w32).okSrc8 (.imm 1) = true) ∧
    (binaryV (.sbbEvIb (.reg .eax) 0xFF) = some (.sbb, .reg .eax, .immB 0xFF) ∧ w32.ctx.lock = false ∧
      w32.okV w32.osz (.reg .eax) true = true ∧ w32.okSrcV w32.osz (.immB 0xFF) = true) ∧
    (binaryV (.xorGvEv .ecx (.mem mB)) = some (.xor, .reg .ecx, .rm (.mem mB)) ∧
      w32.okV w32.osz (.reg .ecx) true = true ∧ w32.okSrcV w32.osz (.rm (.mem mB)) = true) := by decide +kernel

theorem witness_Comparisons :
    (compare8 (.cmpEbIb (.mem mB) 1) = some (.sub, .mem mB, .imm 1) ∧ w32.ctx.lock = false ∧
      w32.ok8 (.mem mB) false = true ∧ w32.okSrc8 (.imm 1) = true) ∧
    (compareV (.testEvGv (.mem mB) .ecx) = some (.and, .mem mB, .rm (.reg .ecx)) ∧
      w32.okV w32.osz (.mem mB) false = true ∧ w32.okSrcV w32.osz (.rm (.reg .ecx)) = true) := by decide +kernel

theorem witness_UnaryOperations :
    (unary8 (.negEb (.mem mB)) = some (.neg, .mem mB) ∧ isMem (RM.mem mB : RM Reg8) = true ∧
      (locked w32).ok8 (.mem mB) true = true) ∧
    (unaryV (.decRv .edi) = some (.dec, .reg .edi) ∧ w32.ctx.lock = false ∧ w32.okV w32.osz (.reg .edi) true = true) := by
  decide +kernel

theorem witness_Multiplications :
    0 < 8 ∧ w32.ctx.lock = false ∧ w32.ok8 (.mem mB) false = true ∧ w32.okV w32.osz (.mem mB) false = true := by
  decide +kernel

/-- The largest quotients, unsigned and signed, of a byte and of a doubleword (V41.34). -/
theorem witness_Divisions :
    let s := (w32.setGpr .eax 0xFF80).setGpr .ecx 1
    (s.ctx.lock = false ∧ s.ok8 (.reg .cl) false = true ∧
      divS (s.gprLow 16 .eax : BitVec (8 + 8)) (s.get8 (.reg .cl)) = some (0x80, 0)) ∧
    (divU ((w32.setGpr .eax 0xFF).gprLow 16 .eax : BitVec (8 + 8)) (1#8) = some (0xFF, 0)) ∧
    (let t := (w32.setGpr .eax 0xFFFFFFFF).setGpr .ecx 1
     t.okV t.osz (.reg .ecx) false = true ∧ divU (t.pair t.osz) (t.getV t.osz (.reg .ecx)) = some (0xFFFFFFFF, 0)) ∧
    (let t := ((w32.setGpr .eax 0x80000000).setGpr .edx 0xFFFFFFFF).setGpr .ecx 1
     divS (t.pair t.osz) (t.getV t.osz (.reg .ecx)) = some (0x80000000, 0)) := by decide +kernel

/-- A divisor of 0, and quotients one past the largest (V41.29, V41.30, V41.35). -/
theorem witness_DivideErrors :
    0 < 8 ∧ divU (0x100 : BitVec (8 + 8)) 1 = none ∧ divU (0 : BitVec (8 + 8)) 0 = none ∧
    divS (0x80 : BitVec (8 + 8)) 1 = none ∧ divS (0xFF7F : BitVec (8 + 8)) 1 = none ∧
    (let s := (w32.setGpr .edx 1).setGpr .ecx 1
     s.ctx.lock = false ∧ s.okV s.osz (.reg .ecx) false = true ∧ s.ok8 (.reg .cl) false = true ∧
     divU (s.pair s.osz) (s.getV s.osz (.reg .ecx)) = none ∧ divS (s.pair s.osz) (s.getV s.osz (.reg .ecx)) = none ∧
     divU ((w32.setGpr .eax 0x100).gprLow 16 .eax : BitVec (8 + 8)) (s.get8 (.reg .cl)) = none) := by decide +kernel

theorem witness_ConditionsAndSetByte : w32.ctx.lock = false ∧ w32.ok8 (.mem mB) true = true ∧ 0 < 1 := by decide +kernel

/-- A masked count of 0 and of 31, to memory. -/
theorem witness_ShiftsAndRotates :
    (shift8 (.shlEbIb (.mem mB) 0x20) = some (.shl, .mem mB, .imm 0x20) ∧ w32.ctx.lock = false ∧
      w32.ok8 (.mem mB) true = true ∧ w32.shiftCount (.imm 0x20) = 0) ∧
    (shiftV (.rcrEvCL (.mem mB)) = some (.rcr, .mem mB, .cl) ∧
      let s := w32.setGpr .ecx 0xFF
      s.okV s.osz (.mem mB) true = true ∧ s.shiftCount .cl = 31) := by decide +kernel

/-- Counts of 1, of the width and one above it: what is stated of the flags meets the rules at these values. -/
theorem witness_ShiftBits :
    0 < 8 ∧ 0 < 1 ∧ 8 ≤ 8 ∧ 8 < 9 ∧ (shlAlu 1#8 8 0).2.cf = true ∧ (shrAlu 0x80#8 8 0).2.cf = true ∧
    (shlAlu 0x40#8 1 0).2.of = true ∧ (shlAlu 0x40#8 2 0x800).2.of = true ∧ (shlAlu 1#8 9 1).2.cf = true ∧
    (sarAlu 0x80#8 9 0).2.cf = true ∧ (rorAlu 1#8 1 ⟨false, false, false, false, false, false⟩ 0).2.of = true ∧
    shldAlu 1#16 2#16 17 0 5#16 = (5#16, ⟨false, false, false, false, false, false⟩) ∧
    (rolAlu 0x81#8 1 ⟨false, false, false, false, false, false⟩ 0).1 = 3#8 := by decide +kernel

/-- A bit before the operand: offset -1 is bit 31 of the doubleword below it (V42.30). -/
theorem witness_BitTests :
    let s := w32.setGpr .ecx 0xFFFFFFFF
    (bitTestForm (.btEvGv (.mem mB) .ecx) = some (.mem mB, .reg .ecx) ∧ s.ctx.lock = false ∧
      s.okBit s.osz (.mem mB) (.reg .ecx) false = true ∧ s.bitOff s.osz mB (.reg .ecx) = 0x3FFC ∧
      bitNumber s.osz (s.bitOffset s.osz (.reg .ecx)) = 31) ∧
    (bitChangeForm (.btcEvIb (.mem mB) 0x1F) = some (.btc, .mem mB, .imm 0x1F) ∧
      isMem (RM.mem mB : RM Gpr) = true ∧ (locked w32).okBit 32 (.mem mB) (.imm 0x1F) true = true) := by decide +kernel

/-- No set bit, bit 0, bit 31. -/
theorem witness_BitScans :
    w32.ctx.lock = false ∧ w32.okV w32.osz (.reg .eax) false = true ∧ w32.getV w32.osz (.reg .eax) = 0 ∧
    (∀ i ∈ [0, 31], let s := w32.setGpr .eax (1#32 <<< i)
      i < s.osz ∧ (s.getV s.osz (.reg .eax)).getLsbD i = true ∧
      ∀ j < 32, j ≠ i → (s.getV s.osz (.reg .eax)).getLsbD j = false) := by decide +kernel

/-- Memory and register forms; direct offsets at the top of the segment. -/
theorem witness_MovesAndExchanges :
    w32.ctx.lock = false ∧ move8 (.movEbIb (.mem mB) 1) = some (.mem mB, .imm 1) ∧ w32.ok8 (.mem mB) true = true ∧
    moveV (.movGvEv .eax (.mem mB)) = some (.reg .eax, .rm (.mem mB)) ∧
    w32.okV w32.osz (.reg .eax) true = true ∧ w32.okSrcV w32.osz (.rm (.mem mB)) = true ∧
    w32.reachable w32.dataSeg 0xFFFFFFFF 1 true = true ∧ w32.reachable w32.dataSeg 0xFFFFFFFC (w32.osz / 8) true = true ∧
    w32.reachable w32.dataSeg 0xFFFFFFFF 1 false = true ∧ w32.reachable w32.dataSeg 0xFFFFFFFC (w32.osz / 8) false = true ∧
    isMem (RM.mem mB : RM Reg8) = true ∧ isMem (RM.mem mB : RM Gpr) = true ∧ (locked w32).ok8 (.mem mB) true = true ∧
    (locked w32).okV 32 (.mem mB) true = true := by decide +kernel

/-- DS with a null selector and with data of level 3, SS with data of level 0, and DS in real-address mode. -/
theorem witness_SegmentLoads :
    w32.ctx.lock = false ∧ w32.okV 16 (.mem mB) true = true ∧ w32.okV 16 (.reg .eax) false = true ∧
    w32.canLoadSeg .ds 3 = true ∧ w32.canLoadSeg .ds 0x23 = true ∧ w32.canLoadSeg .ss 0x10 = true ∧
    w32.canLoadSeg .ss 0x23 = false ∧ e16.canLoadSeg .ds 0xFFFF = true ∧ e16.ctx.lock = false ∧
    e16.okV 16 (.reg .eax) false = true ∧
    (let s := poke w32 0x4004 [0x10]
     loadFarForm (.lssGvMp .esp mB) = some (.ss, .esp, mB) ∧ s.ctx.lock = false ∧
     s.reachable (s.effSeg mB) (s.effOff mB) (s.osz / 8 + 2) false = true ∧
     s.canLoadSeg .ss (s.load (s.effSeg mB) (s.effOff mB + BitVec.ofNat 32 (s.osz / 8)) 2 16) = true) := by decide +kernel

/-- A push that reaches offset 0, pushes of all registers, in 32-bit and in 16-bit code. -/
theorem witness_Pushes :
    let s := w32.setGpr .esp 4
    s.ctx.lock = false ∧ pushForm (.pushIb 0xFF) = some (.immB 0xFF) ∧ s.okSrcV s.osz (.immB 0xFF) = true ∧
    s.canPush (s.osz / 8) = true ∧ pushSegForm .pushGS = some .gs ∧ s.canPush s.oszBytes = true ∧
    (w32.setGpr .esp 32).canPushAll 4 8 = true ∧ e16.canPush e16.oszBytes = true ∧ e16.ctx.lock = false := by
  decide +kernel

/-- A pop from the top of memory, POP [ESP], a segment register, POPF and POPA. -/
theorem witness_Pops :
    let s := w32.setGpr .esp 0xFFFFFFFC
    s.ctx.lock = false ∧ popForm (.popRv .eax) = some (.reg .eax) ∧ s.canPop (s.osz / 8) = true ∧
    (s.popped (s.osz / 8)).okV s.osz (.reg .eax) true = true ∧ s.canPop s.oszBytes = true ∧
    popForm (.popEv (.mem (.m32 (.sib 0 .esp .esp .none)))) = some (.mem (.m32 (.sib 0 .esp .esp .none))) ∧
    (w32.popped 4).okV 32 (.mem (.m32 (.sib 0 .esp .esp .none))) true = true ∧
    popSegForm .popSS = some .ss ∧
    (let t := poke w32 0x8000 [0x10]
     t.canPop t.oszBytes = true ∧ (t.popped t.oszBytes).canLoadSeg .ss ((t.top t.oszBytes 32).setWidth 16) = true) ∧
    ([0, 1, 2, 4, 5, 6, 7].all fun i =>
      w32.reachable .ss (stackOff w32.stack32 (w32.gpr .esp + BitVec.ofNat 32 (4 * i))) 4 false) = true := by
  decide +kernel

theorem witness_Conversions :
    w32.ctx.lock = false ∧ w32.ok8 (.mem mB) false = true ∧ w32.okV 16 (.mem mB) false = true ∧
    w32.reachable w32.dataSeg w32.xlatOff 1 false = true := by decide +kernel

/-- E32 with a code segment that ends at 1000FH. -/
def short32 : State := { w32 with segs := { w32.segs with cs := { w32.segs.cs with limit := 0x1000F } } }

/-- To the last byte of the code segment, and a branch past it that is not taken. -/
theorem witness_NearBranches :
    short32.ctx.lock = false ∧ short32.canBranch true (ib8 0x0F) = true ∧ short32.canBranch true (jv32 0x0F) = true ∧
    short32.okV short32.osz (.reg .eax) false = true ∧
    short32.inCode ((short32.getV short32.osz (.reg .eax)).setWidth 32) = true ∧
    short32.canBranch (short32.cond .e) (jv32 0x10) = true ∧ short32.canBranch (short32.cond .ne) (ib8 0x0F) = true ∧
    short32.canBranch (short32.count == 0) (ib8 0x0F) = true ∧
    (let t := short32.decCount
     t.canBranch (t.count != 0) (ib8 0x0F) = true ∧ t.canBranch (t.count != 0 && short32.zf) (ib8 0x10) = true ∧
     t.canBranch (t.count != 0 && !short32.zf) (ib8 0x0F) = true) := by decide +kernel

/-- The last byte of the code segment may be fetched after a jump to the byte before it, and the byte past it may not; the
prefetch queue held another byte for it before the jump (20_memory.md R242, R251). -/
theorem witness_NearBranches_fetch :
    let s : State := { short32 with prefetch := [(0x1000F, 0xCC)] }
    let after := complete s (s.goTo 0x1000E)
    s.staleCopies 0x1000F = [0xCC] ∧ after.mayFetch 1 = true ∧ after.mayFetch 2 = false ∧
      after.staleCopies 0x1000F = [] := by decide +kernel

theorem witness_NearCallsAndReturns :
    short32.ctx.lock = false ∧ short32.inCode (short32.branchTo (jv32 0x0F)) = true ∧
    short32.canPush short32.oszBytes = true ∧ short32.okV short32.osz (.reg .eax) false = true ∧
    short32.inCode ((short32.getV short32.osz (.reg .eax)).setWidth 32) = true ∧
    short32.canPop short32.oszBytes = true ∧ short32.inCode (short32.top short32.oszBytes 32) = true := by decide +kernel

/-- E16R with a 32-bit operand size and the stack pointer `sp`. -/
def wide (sp : Dword) : State := { e16.setGpr .esp sp with ctx := { e16.ctx with op66 := true } }

/-- Real-address mode; nonconforming code with RPL 0, conforming code of level 0; 80286 descriptors; returns in both modes. -/
theorem witness_FarTransfersAndReturns :
    farForm (.callAp 0xFFFF 0x2000) = some (true, .ptr 0xFFFF 0x2000) ∧ e16.ctx.lock = false ∧
    e16.okFar (.ptr 0xFFFF 0x2000) = true ∧ e16.canFar true 0x2000 0xFFFF = true ∧
    g32.canFar false 0x08 0xFFFFFFFF = true ∧ g32.canFar true 0x5B 0 = true ∧ g32.canFar false 0x1B 0 = false ∧
    (let s := poke g32 0x4004 [0x08]
     farForm (.jmpEp mB) = some (false, .mem mB) ∧ s.ctx.lock = false ∧ s.okFar (.mem mB) = true ∧
     s.canFar false (s.farPtr (.mem mB)).2 (s.farPtr (.mem mB)).1 = true) ∧
    ([0x38#16, 0x40#16].all fun sel => !isNull sel && g32.pe &&
      (g32.descFor sel).any (fun d => !d.s && (d.typ == 1 || d.typ == 4))) = true ∧
    (poke (e16.setGpr .esp 0x1FC) 0x1FC [0x05, 0x01, 0x00, 0x10]).canRetf = true ∧ (wide 0xFFFA).canRetf = true ∧
    (poke w32 0x8000 [0xFF, 0xFF, 0xFF, 0xFF, 0x08]).canRetf = true ∧ w32.ctx.lock = false := by decide +kernel

/-- The gate of E32 from level 0, by JMP, and from level 3, by CALL, with two parameters. -/
theorem witness_CallGates :
    let g : Desc := { raw := 0x0001EC0200080100, addr := 0x1030 }
    let d : Desc := { raw := 0x00CF9B000000FFFF, addr := 0x1008 }
    let sd : Desc := { raw := 0x00CF93000000FFFF, addr := 0x1010 }
    (farForm (.jmpAp 5 0x30) = some (false, .ptr 5 0x30) ∧ e32.ctx.lock = false ∧ e32.okFar (.ptr 5 0x30) = true ∧
      e32.pe = true ∧ isNull 0x30 = false ∧ e32.descFor 0x30 = some g ∧ e32.callGateFits 0x30 g d = true ∧
      e32.descFor g.gateSel = some d ∧ d.dpl = e32.cpl ∧ e32.canPushAll 4 2 = true) ∧
    (farForm (.callAp 5 0x33) = some (true, .ptr 5 0x33) ∧ e32u.ctx.lock = false ∧ e32u.okFar (.ptr 5 0x33) = true ∧
      e32u.pe = true ∧ isNull 0x33 = false ∧ e32u.descFor 0x33 = some g ∧ e32u.callGateFits 0x33 g d = true ∧
      e32u.descFor g.gateSel = some d ∧ d.conforming = false ∧ d.dpl.toNat < e32u.cpl.toNat ∧
      e32u.descFor (e32u.tssStackAt d.dpl).1 = some sd ∧ g.gateCount = 2 ∧ e32u.innerFits d.dpl sd (4 + 2) = true ∧
      e32u.canParams 2 = true ∧
      ((e32u.drawn 2).onInner d.dpl (e32u.tssStackAt d.dpl).1 sd (e32u.tssStackAt d.dpl).2).canPushAll 4 (4 + 2) =
        true) := by decide +kernel

/-- A far return that releases eight bytes, and an interrupt return, both from level 0 to level 3. -/
theorem witness_ReturnsToOuterLevel :
    let d : Desc := { raw := 0x00CFFB000000FFFF, addr := 0x1018 }
    let sd : Desc := { raw := 0x00CFF3000000FFFF, addr := 0x1020 }
    let above (s : State) (up : Nat) : Bool :=
      s.holdsSlots up 4 2 && s.canSlot up 4 && s.canSlot (up + 4) 2 && (s.slot (up + 4) 2 16 : Word) == 0x23 &&
        s.descFor 0x23 == some sd && (s.outerFault 3 0x23).isNone
    let left (s : State) : Bool :=
      !s.ctx.lock && s.pe && s.oszBytes == 4 && (s.slot 4 2 16 : Word) == 0x1B && s.descFor 0x1B == some d &&
        s.canSlot 0 4 && s.canSlot 4 2 && decide (s.cpl.toNat < (rpl 0x1B).toNat) &&
        (s.returnFault 0x1B (s.slot 0 4 32)).isNone && decide ((s.slot 0 4 32 : Dword).toNat ≤ d.limit32.toNat)
    (let s := poke w32 0x8000 [7, 0, 2, 0, 0x1B, 0, 0, 0, 1, 1, 1, 1, 2, 2, 2, 2, 0, 0x90, 0, 0, 0x23]
     left s = true ∧ s.holdsSlots 0 4 2 = true ∧ above s (2 * 4 + 8) = true) ∧
    (let s := poke w32 0x8000 [7, 0, 2, 0, 0x1B, 0, 0, 0, 2, 2, 0, 0, 0, 0x90, 0, 0, 0x23]
     left s = true ∧ s.nt = false ∧ s.holdsSlots 0 4 3 = true ∧ s.canSlot 8 4 = true ∧
     (s.slot 8 4 32 : Dword).getLsbD 17 = false ∧ above s (3 * 4) = true) := by decide +kernel

/-- At the lower bound, at the upper bound, below and above. -/
theorem witness_BoundAndInto :
    let s (i : Dword) : State := poke (w32.setGpr .eax i) 0x4000 [0xFE, 0xFF, 0xFF, 0xFF, 9]
    let lo (i : Dword) : BitVec 32 := (s i).load .ds 0x4000 4 32
    let hi (i : Dword) : BitVec 32 := (s i).load .ds 0x4004 4 32
    (s 0).ctx.lock = false ∧ (s 0).of = false ∧
    (s 0).reachable ((s 0).effSeg mB) ((s 0).effOff mB) (2 * ((s 0).osz / 8)) false = true ∧
    ([0xFFFFFFFE#32, 9#32].all fun i => decide ((lo i).toInt ≤ i.toInt ∧ i.toInt ≤ (hi i).toInt)) = true ∧
    (0xFFFFFFFD#32).toInt < (lo 0).toInt ∧ (hi 0).toInt < (10#32).toInt := by decide +kernel

/-- No level, one, and the most: 31. -/
theorem witness_StackFrames :
    w32.ctx.lock = false ∧ (∀ l ∈ [0, 1, 31], ((w32.setGpr .ebp 0x9000).enterFrames l).isSome = true) ∧
    w32.reachable .ss (stackOff w32.stack32 (w32.gpr .ebp)) (w32.osz / 8) false = true := by decide +kernel

/-- Vector 0 in real-address mode, vectors 13 with and 6 without an error code in protected mode. -/
theorem witness_ExceptionEntry :
    e16.canEnter 0 .exception none = true ∧ e16.canEnter 255 .exception (some 0) = true ∧
    e32.canEnter 13 .exception (some 0) = true ∧ e32.canEnter 6 .exception none = true := by decide +kernel

theorem witness_ExceptionEntryToInnerLevel :
    let g : Desc := { raw := 0x00058E0000080100, addr := 0x3068 }
    let d : Desc := { raw := 0x00CF9B000000FFFF, addr := 0x1008 }
    let sd : Desc := { raw := 0x00CF93000000FFFF, addr := 0x1010 }
    let err : Option Word := some 0
    e32u.pe = true ∧ e32u.gateFor 13 = some g ∧ e32u.gateFits g .exception = true ∧ e32u.descFor g.gateSel = some d ∧
    d.isCode = true ∧ d.p = true ∧ d.conforming = false ∧ d.dpl.toNat < e32u.cpl.toNat ∧
    g.gateOff.toNat ≤ d.limit32.toNat ∧ e32u.descFor (e32u.tssStackAt d.dpl).1 = some sd ∧
    e32u.innerFits d.dpl sd (5 + errCount err) = true ∧
    ((e32u.drawn (2 + errCount err)).onInner d.dpl (e32u.tssStackAt d.dpl).1 sd (e32u.tssStackAt d.dpl).2).canPushAll 4
      (5 + errCount err) = true := by decide +kernel

/-- The first and the last vector in real-address mode, INT 3 and INTO, and a gate open to level 3. -/
theorem witness_SoftwareInterrupts :
    e16.ctx.lock = false ∧ e16.canEnter 0 .software none = true ∧ e16.canEnter 255 .software none = true ∧
    e16.canEnter 3 .software none = true ∧ ((e16.putFlag 11 true).of = true ∧
      (e16.putFlag 11 true).canEnter 4 .software none = true) ∧
    e32.ctx.lock = false ∧ e32.canEnter 48 .software none = true := by decide +kernel

/-- Real-address mode, the same level of protected mode, and an image that would set VM. -/
theorem witness_ReturnFromException :
    (poke (e16.setGpr .esp 0x1FA) 0x1FA [0x02, 0x01, 0x00, 0x10, 0x02, 0x02]).canIret = true ∧ e16.ctx.lock = false ∧
    (poke w32 0x8000 [0, 0, 1, 0, 8, 0, 0, 0, 2, 2]).canIret = true ∧
    (let s := poke w32 0x8000 [0, 0, 1, 0, 8, 0, 0, 0, 2, 0, 2]
     s.ctx.lock = false ∧ s.pe = true ∧ s.nt = false ∧ s.cpl = 0 ∧ s.o32 = true ∧ s.holdsSlots 0 4 3 = true ∧
     s.canSlot 0 4 = true ∧ s.canSlot 4 2 = true ∧ s.canSlot 8 4 = true ∧
     (s.slot 8 4 32).getLsbD 17 = true) := by decide +kernel

/-- Each kind of event, held off and taken. -/
theorem witness_EventPriority :
    ({ e32 with inhibitSS := true, nmi := true } : State).pendingEvent = none ∧
    (let s : State := { e32 with trapPending := true, nmi := true, intr := some 0x20 }
     s.inhibitSS = false ∧ s.trapPending = true ∧ s.run ≠ .shutdown) ∧
    (let s : State := { e32 with nmi := true, intr := some 0x20 }
     s.inhibitSS = false ∧ s.trapPending = false ∧ s.nmi = true ∧ s.nmiLatch = false) ∧
    (let s : State := { e32 with eflags := 0x202, nmi := true, nmiLatch := true, intr := some 0xFF }
     s.inhibitSS = false ∧ s.trapPending = false ∧ s.nmiLatch = true ∧ s.intr = some 0xFF ∧
     (s.if' && !s.inhibitSTI && s.run != .shutdown) = true ∧
     (({ s with inhibitSTI := true } : State).if' && !({ s with inhibitSTI := true } : State).inhibitSTI) = false) ∧
    (e32.trapPending = false ∧ e32.nmi = false ∧ e32.intr = none) := by decide +kernel

theorem witness_DoubleFaultPairs :
    let e : Event := { vec := 14, kind := .exception, err := some 0, taking := .fault }
    e.kind = .exception ∧ ({ vec := 14, err := some 0 } : Exc).vec ≠ 8 := by decide +kernel

/-- One element of each instruction; a repetition with a count of 0, of 1 and above. -/
theorem witness_StringInstructions :
    let s := (w32.setGpr .esi 0x4000).setGpr .edi 0xFFFFFFFC
    stringForm .movsv = some (.movs, false) ∧ s.ctx.lock = false ∧ s.ctx.rep = none ∧
    (∀ op ∈ [StringOp.movs, .cmps, .scas, .lods, .stos, .ins, .outs],
      s.canElement op (s.elementBits false) = true ∧ s.canElement op (s.elementBits true) = true) ∧
    (∀ k ∈ [RepKind.rep, .repne], (repeated s k).ctx.rep = some k ∧ (repeated s k).ctx.lock = false ∧
      (repeated s k).count = 0 ∧ (repeated (s.setGpr .ecx 1) k).count ≠ 0 ∧
      (repeated (s.setGpr .ecx 1) k).canElement .scas 32 = true) := by decide +kernel

/-- E32U with the permission map of 96_derived_vectors.md V44.20: ports 0 to 255 with port 41 closed. -/
def io32 : State :=
  poke { e32u with tr := { e32u.tr with limit := 0x88 }, eflags := 2 } 0x2066
    [0x68, 0, 0, 0, 0, 0, 0, 0x02]

/-- Without protection up to the last port; with the map, the four ports below the closed one. -/
theorem witness_PortAccesses :
    e32.ctx.lock = false ∧ e32.canIo 0xFFFF 1 = true ∧ e32.canIo 0xFC (e32.osz / 8) = true ∧ io32.ctx.lock = false ∧
    io32.canIo 0x28 1 = true ∧ io32.canIo 37 (io32.osz / 8) = true ∧ io32.portsFree = false := by decide +kernel

theorem witness_CarryAndDirectionFlags : e32.ctx.lock = false := rfl

theorem witness_FlagsInAhAndNop : e32.ctx.lock = false ∧ e32.eflags &&& 0x2A = 2 := by decide +kernel

/-- CPL equal to IOPL, level 0, and both values of MP with TS and of EM or TS. -/
theorem witness_ProcessorControl :
    ({ e32u with eflags := 0x3202 } : State).ioSensitive = true ∧ e32.privileged = true ∧ e32.ctx.lock = false ∧
    ({ e32 with cr0 := 3 } : State).ts = false ∧ ({ e32 with cr0 := 9 } : State).mp = false ∧
    (({ e32 with cr0 := 0xB } : State).mp && ({ e32 with cr0 := 0xB } : State).ts) = true ∧
    (e32.em || e32.ts) = false ∧ (({ e32 with cr0 := 5 } : State).em) = true := by decide +kernel

theorem witness_PrivilegeFaults :
    (∀ l ∈ [1#2, 3#2], let s : State := { e32u with cpl := l }
      s.ctx.lock = false ∧ s.pe = true ∧ s.cpl ≠ 0 ∧ s.iopl.toNat < s.cpl.toNat) := by decide +kernel

theorem witness_TableRegistersAndMsw :
    w32.ctx.lock = false ∧ w32.privileged = true ∧ w32.reachable (w32.effSeg mB) (w32.effOff mB) 6 false = true ∧
    (e32u.setGpr .ebx 0x4000).reachable .ds 0x4000 6 true = true ∧ w32.okV 16 (.mem mB) false = true ∧
    w32.okV 16 (.mem mB) true = true := by decide +kernel

/-- Real-address mode; a null selector, an LDT, a free TSS and an 80286 TSS. -/
theorem witness_SystemSegmentRegisters :
    e16.pe = false ∧ e16.ctx.lock = false ∧
    ([3#16, 0x48#16, 0x50#16, 0x38#16].all fun sel =>
      let s := g32.setGpr .eax (sel.setWidth 32)
      !s.ctx.lock && s.pe && s.cpl == 0 && s.okV 16 (.reg .eax) false && s.okV 16 (.reg .eax) true &&
        s.getV 16 (.reg .eax) == sel) = true ∧
    isNull 3 = true ∧ isNull 0x48 = false ∧ ti 0x48 = false ∧ (g32.descFor 0x48).any Desc.isLdt = true ∧
    (g32.descFor 0x50).any Desc.isFreeTss = true ∧ (g32.descFor 0x38).any (fun d => !d.s && d.typ == 1) = true := by
  decide +kernel

/-- W32 with an entry in way 3 for 00012801H, and one of the same tag in way 1 that is not valid. -/
def found32 : State :=
  (w32.setTlbEntry 0x12801 3 { tag := 0x12, v := true, d := true, u := false, w := true, frame := 0xABC }).setTlbEntry
    0x12801 1 { tag := 0x12, v := false, d := true, u := false, w := true, frame := 0 }

/-- A lookup that finds way 3 alone, by pairs that name each bit; one with a pair that names the other value of D, U or W. -/
theorem witness_SpecialRegisterMoves_lookup :
    ((0x12CC1#32).getLsbD 0 = true ∧ (0x12CC1#32).getLsbD 11 = true ∧ found32.tlbDup.contains (tlbTag 0x12CC1) = false ∧
      found32.ctx.lock = false ∧ found32.privileged = true) ∧
    found32.wayMatches 0x12CC1 3 = true ∧ (∀ other < 4, other ≠ 3 → found32.wayMatches 0x12CC1 other = false) ∧
    ([0x12AC1#32, 0x12D41, 0x12CA1].all fun v => [0, 1, 2, 3].all fun way => !found32.wayMatches v way) = true ∧
    (found32.tlbEntry 0x12CC1 3).foundIn 0x12801 = 0x12CC1 := by decide +kernel

/-- PG without PE and with it; DR7 with and without an enabled breakpoint; a write and a lookup of the TLB. -/
theorem witness_SpecialRegisterMoves :
    w32.ctx.lock = false ∧ w32.privileged = true ∧
    (0x80000000#32).getLsbD 31 = true ∧ (0x80000000#32).getLsbD 0 = false ∧ (0x80000001#32).getLsbD 0 = true ∧
    0x400#32 &&& 0x20FF = 0 ∧ 0x2000#32 &&& 0x20FF ≠ 0 ∧
    (let s : State := { w32 with tr7 := 0x1C }
     (0x12000#32).getLsbD 0 = false ∧ s.tr7.getLsbD 4 = true ∧
     s.duplicateTag 0x12000 (s.tr7.extractLsb' 2 2).toNat = false) ∧
    (0x12801#32).getLsbD 0 = true ∧ (0x12801#32).getLsbD 11 = true ∧ w32.tlbDup.contains (tlbTag 0x12801) = false ∧
    (∀ way < 4, (w32.tlbEntry 0x12801 way).tag ≠ tlbTag 0x12801) := by decide +kernel

/-- With paging on and an entry in the TLB, a write of CR3 completes and leaves no entry (20_memory.md R242, R262). -/
theorem witness_SpecialRegisterMoves_cr3 :
    let s : State := { found32 with cr0 := 0x80000001 }
    s.ctx.lock = false ∧ s.privileged = true ∧ s.pg = true ∧ s.tlbHits 0x12801 = [3] ∧
      (match exec (.movCdRd 3 .eax) s with
       | .next t => t.pg && t.tlbHits 0x12801 == []
       | .fault _ | .refused _ => false) = true := by decide +kernel

/-- Real-address mode; a selector with and without a descriptor, and one LAR and LSL accept. -/
theorem witness_ProtectionProbes :
    e16.pe = false ∧ e16.ctx.lock = false ∧ w32.pe = true ∧ w32.okV 16 (.mem mB) true = true ∧
    ([0x10#16, 0x60#16, 0#16].all fun sel =>
      let s := w32.setGpr .eax (sel.setWidth 32)
      !s.ctx.lock && s.okV 16 (.reg .eax) false && s.tableRam (s.getV 16 (.reg .eax))) = true ∧
    (w32.probed 0x60).any (fun d => d.larType && w32.reaches d 0x60) = false ∧
    (w32.probed 0x10).any (fun d => d.larType && d.lslType && w32.reaches d 0x10) = true := by decide +kernel

/-! ## Witnesses of faults, task switches, TLB hits and events -/

/-- The cells of a descriptor at `d.1` from the base of the GDT on: the bytes that are not 0. -/
def descCells (d : Nat × BitVec 64) : List Host.Cell :=
  ((List.range 8).map fun i => (0x1000 + d.1 + i, d.2.extractLsb' (8 * i) 8)).filter fun c => c.2 != 0

/-- G32 with descriptors that fail a check: absent data, code and TSS at 60H, 68H, 70H, a TSS of 103 bytes at 78H; task gates
at 80H (good), 88H (absent), B0H, C8H to E0H; call gates at 90H to A8H and C0H; code of 4 KiB at B8H; absent data of level 3
at E8H. -/
def f32 : State :=
  let more : List Host.Cell :=
    ([(0x60, 0x00CF13000000FFFF), (0x68, 0x00CF1B000000FFFF), (0x70, 0x0000090021000067), (0x78, 0x0000890021000066),
      (0x80, 0x0000850000500000), (0x88, 0x0000050000500000), (0x90, 0x00000C0000080000), (0x98, 0x00008C0000000000),
      (0xA0, 0x00008C0000680000), (0xA8, 0x00008C0000100000), (0xB0, 0x0000850000380000), (0xB8, 0x00409B0000000FFF),
      (0xC0, 0x00008C0000B81000), (0xC8, 0x0000850000700000), (0xD0, 0x0000850000780000), (0xD8, 0x0000850000540000),
      (0xE0, 0x0000850000280000), (0xE8, 0x00CF73000000FFFF)] : List (Nat × BitVec 64)).flatMap descCells
  { g32 with gdtr := { base := 0x1000, limit := 0xFF }
             mem := g32.mem.filter (·.1 < 0x1060) ++ more ++ g32.mem.filter (0x1060 ≤ ·.1) }

/-- Its memory is canonical. -/
theorem test_f32 : Memory.wf f32.mem = true := by decide +kernel

/-- F32 at level 3. -/
def f32u : State := { f32 with cpl := 3, eflags := 0x202, segs := e32u.segs }

/-- The exception `x`: vector and error code. -/
def fails (o : Option (Byte × Word)) (vec : Byte) (code : Word) : Bool := o == some (vec, code)

/-- A selector that fails a check, in MOV, in LDS and its kin, and in POP. -/
def segFails (r : Sreg) (sel : Word) (vec : Byte) (code : Word) : Bool :=
  let a := f32.setGpr .eax (sel.setWidth 32)
  let b := poke f32 0x4004 (leBytes 2 sel)
  let c := poke f32 0x8000 (leBytes 2 sel)
  !a.ctx.lock && a.pe && a.okV 16 (.reg .eax) false && a.getV 16 (.reg .eax) == sel && a.tableRam sel &&
    fails (a.segFault r sel) vec code && !b.ctx.lock && b.pe &&
    b.reachable (b.effSeg mB) (b.effOff mB) (b.osz / 8 + 2) false &&
    (b.load (b.effSeg mB) (b.effOff mB + BitVec.ofNat 32 (b.osz / 8)) 2 16 : Word) == sel && b.tableRam sel && fails (b.segFault r sel) vec code &&
    !c.ctx.lock && c.pe && c.canPop c.oszBytes && ((c.top c.oszBytes 32 : Dword).setWidth 16 : Word) == sel &&
    c.tableRam sel && fails (c.segFault r sel) vec code

/-- Null, another level, absent, beyond the table, an LDT, RPL above DPL. -/
theorem witness_SegmentLoads_faults :
    segFails .ss 0 13 0 = true ∧ segFails .ss 0x23 13 0x20 = true ∧ segFails .ss 0x60 12 0x60 = true ∧
    segFails .ds 0x100 13 0x100 = true ∧ segFails .gs 0x48 13 0x48 = true ∧ segFails .es 0x60 11 0x60 = true ∧
    segFails .fs 0x13 13 0x10 = true := by decide +kernel

/-- A selector that LLDT or LTR refuses. -/
def sysFails (ltr : Bool) (sel : Word) (vec : Byte) (code : Word) : Bool :=
  let s := f32.setGpr .eax (sel.setWidth 32)
  !s.ctx.lock && s.pe && s.cpl == 0 && s.okV 16 (.reg .eax) false && s.getV 16 (.reg .eax) == sel &&
    (isNull sel || ti sel || s.tableRam sel) && fails (if ltr then s.ltrFault sel else s.lldtFault sel) vec code

/-- LLDT: in the LDT, beyond the table, a TSS, code, an absent LDT. LTR: null, in the LDT, beyond the table, the busy TSS, an
LDT, an absent TSS; a TSS of 103 bytes is loaded. -/
theorem witness_SystemSegmentRegisters_faults :
    sysFails false 0x4C 13 0x4C = true ∧ sysFails false 0x100 13 0x100 = true ∧ sysFails false 0x50 13 0x50 = true ∧
    sysFails false 8 13 8 = true ∧ (f32.lldtFault 0x48).isNone = true ∧ (f32.lldtFault 3).isNone = true ∧
    (let s := poke f32 0x104D [0x02]
     fails (s.lldtFault 0x48) 11 0x48 = true ∧ s.tableRam 0x48 = true) ∧
    sysFails true 3 13 0 = true ∧ sysFails true 0x54 13 0x54 = true ∧ sysFails true 0x100 13 0x100 = true ∧
    sysFails true 0x28 13 0x28 = true ∧ sysFails true 0x48 13 0x48 = true ∧ sysFails true 0x70 11 0x70 = true ∧
    (f32.ltrFault 0x78).isNone = true ∧ (f32.ltrFault 0x38).isNone = true := by decide +kernel

/-- A far pointer that fails a check, in JMP and CALL. -/
def farFails (sel : Word) (off : Dword) (vec : Byte) (code : Word) : Bool :=
  [true, false].all fun call => farForm (if call then .callAp off sel else .jmpAp off sel) == some (call, .ptr off sel) &&
    !f32.ctx.lock && f32.pe && f32.okFar (.ptr off sel) && f32.tableRam sel && fails (f32.farFault sel off) vec code

/-- Null, beyond the table, absent code, code of another level, one byte past the limit and at it, data, a busy, an absent and a
short TSS, an LDT; past the limit in real-address mode. -/
theorem witness_FarTransfersAndReturns_faults :
    farFails 0 0 13 0 = true ∧ farFails 0x100 0 13 0x100 = true ∧ farFails 0x68 0 11 0x68 = true ∧
    farFails 0x1B 0 13 0x18 = true ∧ farFails 0xB8 0x1000 13 0 = true ∧ (f32.farFault 0xB8 0xFFF).isNone = true ∧
    farFails 0x10 0 13 0x10 = true ∧ farFails 0x28 0 13 0x28 = true ∧ farFails 0x70 0 11 0x70 = true ∧
    farFails 0x78 0 10 0x78 = true ∧ farFails 0x48 0 13 0x48 = true ∧
    (e16.pe = false ∧ e16.ctx.lock = false ∧ e16.okFar (.ptr 0x10000 0x2000) = true ∧ e16.inCode 0x10000 = false) := by
  decide +kernel

/-- No room for the return address of a CALL: at 0, for the second push alone, and in protected mode. -/
theorem witness_FarTransfersAndReturns_push :
    ([e16.setGpr .esp 1, e16.setGpr .esp 3, g32.setGpr .esp 2, g32.setGpr .esp 6].all fun s =>
      let sel : Word := if s.pe then 8 else 0x2000
      farForm (.callAp 0 sel) == some (true, .ptr 0 sel) && !s.ctx.lock && s.okFar (.ptr 0 sel) && !s.pg &&
        s.canFar false sel 0 && s.segs.ss.valid && s.segs.ss.allows true &&
        !(s.pushOffs s.oszBytes 2).all fun p => s.segs.ss.inLimit p s.oszBytes) = true := by decide +kernel

/-- A return address that fails a check: the top of the stack holds the offset `off` and the selector `sel`. -/
def retFails (s : State) (sel : Word) (off : Dword) (vec : Byte) (code : Word) : Bool :=
  let t := poke s 0x8000 (leBytes 4 off ++ leBytes 2 sel ++ [0, 0, 2])
  !t.ctx.lock && t.pe && !t.nt && t.oszBytes == 4 && t.holdsReturn && t.holdsSlots 0 4 3 && t.canSlot 0 4 &&
    t.canSlot 4 4 && t.canSlot 4 2 && t.canSlot 8 4 && !(t.slot 8 4 32 : Dword).getLsbD 17 &&
    (t.slot 4 2 16 : Word) == sel && (t.slot 0 4 32 : Dword) == off && t.tableRam sel && fails (t.returnFault sel off) vec code

/-- Returns by RETF and IRET: to an inner level, null, beyond the table, data, absent, past the limit and at it, RPL above
DPL; no room for the frame at either end of the stack, and for the selector alone in real-address mode, where two bytes of
it are enough; past the limit in real-address mode. -/
theorem witness_Returns_faults :
    retFails f32u 8 0 13 8 = true ∧ retFails f32 0 0 13 0 = true ∧ retFails f32 0x100 0 13 0x100 = true ∧
    retFails f32 0x10 0 13 0x10 = true ∧ retFails f32 0x68 0 11 0x68 = true ∧ retFails f32 0xB8 0x1000 13 0 = true ∧
    (f32.returnFault 0xB8 0xFFF).isNone = true ∧ retFails f32 0x0B 0 13 8 = true ∧
    ([0xFFFFFFFD#32, 0xFFFFFFF9#32].all fun p => !(w32.setGpr .esp p).holdsReturn) = true ∧
    ([0xFFFB#32, 0xFFFD, 0xFFFF].all fun p => !(wide p).holdsReturn) = true ∧ (wide 0xFFFA).holdsReturn = true ∧
    (wide 0xFFFA).holdsSlots 0 4 2 = false ∧ (wide 0xFFFC).holdsReturn = true ∧
    (w32.setGpr .esp 0xFFFFFFF8).holdsReturn = true ∧ (w32.setGpr .esp 0xFFFFFFF8).holdsSlots 0 4 3 = false ∧
    (w32.setGpr .esp 0xFFFFFFF4).holdsSlots 0 4 3 = true ∧ w32.pe = true ∧ w32.nt = false ∧
    (e16.setGpr .esp 0xFFFF).holdsReturn = false ∧ (e16.setGpr .esp 0xFFFE).holdsReturn = true ∧
    (let s : State := { e16 with segs := { e16.segs with cs := { e16.segs.cs with limit := 0xFF } } }
     s.oszBytes = 2 ∧ s.holdsReturn = true ∧ s.holdsSlots 0 2 3 = true ∧ s.canSlot 0 2 = true ∧ s.canSlot 2 2 = true ∧
     s.canSlot 4 2 = true ∧
     let t := poke s 0x200 [0, 1]
     t.pe = false ∧ t.canSlot 0 2 = true ∧ t.inCode (t.slot 0 2 32) = false) := by decide +kernel

/-- The saved SS of an outer level that fails a check, eight bytes above the return address for RETF, twelve for IRET. -/
def outerFails (nss : Word) (vec : Byte) (code : Word) : Bool :=
  [8, 12].all fun up =>
    let t := poke f32 0x8000 ([7, 0, 2, 0, 0x1B, 0, 0, 0] ++ List.replicate (up - 4) 0 ++ leBytes 2 nss)
    !t.ctx.lock && t.pe && !t.nt && t.oszBytes == 4 && t.holdsSlots 0 4 2 && t.holdsSlots up 4 2 && t.canSlot 0 4 &&
      t.canSlot 4 2 && t.canSlot 8 4 && t.canSlot up 4 && t.canSlot (up + 4) 2 && (t.descFor 0x1B).isSome &&
      (t.slot 4 2 16 : Word) == 0x1B && (t.returnFault 0x1B (t.slot 0 4 32)).isNone &&
      (t.slot (up + 4) 2 16 : Word) == nss && t.tableRam nss && fails (t.outerFault 3 nss) vec code

/-- A null SS, beyond the table, of another RPL, of another DPL, absent; no room for it; CS past its limit. -/
theorem witness_ReturnsToOuterLevel_faults :
    outerFails 0 13 0 = true ∧ outerFails 0x103 13 0x100 = true ∧ outerFails 0x20 13 0x20 = true ∧
    outerFails 0x13 13 0x10 = true ∧ outerFails 0xEB 12 0xE8 = true ∧
    (let s := poke (w32.setGpr .esp 0xFFFFFFF0) 0xFFFFFFF0 [7, 0, 2, 0, 0x1B, 0, 0, 0, 2, 2]
     s.canSlot 0 4 = true ∧ s.canSlot 4 2 = true ∧ s.canSlot 8 4 = true ∧ (s.slot 4 2 16 : Word) = 0x1B ∧
     (s.returnFault 0x1B (s.slot 0 4 32)).isNone = true ∧ (s.descFor 0x1B).isSome = true ∧
     s.holdsSlots 0 4 3 = true ∧ s.holdsSlots 12 4 2 = false ∧ s.holdsSlots 8 4 2 = true ∧ s.holdsSlots 9 4 2 = false) ∧
    (let s := poke (poke f32 0x1018 (leBytes 8 0x0040FB0000000FFF#64)) 0x8000
       [0, 0x10, 0, 0, 0x1B, 0, 0, 0, 0, 0x90, 0, 0, 0x23, 0, 0, 0, 0x23]
     (s.descFor 0x1B).any (fun d => decide (d.limit32.toNat < (s.slot 0 4 32 : Dword).toNat)) = true ∧
     (s.returnFault 0x1B (s.slot 0 4 32)).isNone = true ∧ s.holdsSlots 0 4 2 = true ∧ s.holdsSlots 8 4 2 = true ∧
     s.canSlot 8 4 = true ∧ s.canSlot 12 2 = true ∧ (s.descFor 0x23).isSome = true ∧
     (s.outerFault 3 (s.slot 12 2 16)).isNone = true ∧ s.holdsSlots 0 4 3 = true ∧ s.holdsSlots 12 4 2 = true ∧
     s.canSlot 16 2 = true ∧ (s.slot 8 4 32 : Dword).getLsbD 17 = false ∧
     (s.outerFault 3 (s.slot 16 2 16)).isNone = true) := by decide +kernel

/-- A call gate that fails a check. -/
def gateFails (s : State) (call : Bool) (sel : Word) (vec : Byte) (code : Word) : Bool :=
  farForm (if call then .callAp 5 sel else .jmpAp 5 sel) == some (call, .ptr 5 sel) && !s.ctx.lock && s.pe &&
    !isNull sel && s.tssRam && (s.descFor sel).any fun g => !g.s && g.typ == 12 && fails (s.gateFault call sel g) vec code

/-- A task gate that fails a check. -/
def taskGateFails (s : State) (call : Bool) (sel : Word) (vec : Byte) (code : Word) : Bool :=
  farForm (if call then .callAp 5 sel else .jmpAp 5 sel) == some (call, .ptr 5 sel) && !s.ctx.lock && s.pe &&
    !isNull sel && (s.descFor sel).any fun g =>
      !g.s && g.typ == 5 && s.tableRam g.gateSel && fails (s.taskGateFault sel g) vec code

/-- A gate that is absent, above RPL or empty; a target that is absent, data or too short; an inner level that a JMP may not
reach; an inner stack that TR does not reach, that is null or that is absent. Task gates likewise, to a TSS in the LDT, absent,
short or busy. -/
theorem witness_CallGates_faults :
    ([true, false].all fun call => gateFails f32 call 0x90 11 0x90 && gateFails f32 call 0x98 13 0 &&
      gateFails f32 call 0xA0 11 0x68 && gateFails f32 call 0xA8 13 0x10 && gateFails f32 call 0xC0 13 0 &&
      gateFails f32 call 0xA3 13 0xA0 && taskGateFails f32 call 0x88 11 0x88 && taskGateFails f32 call 0x83 13 0x80 &&
      taskGateFails f32 call 0xD8 13 0x54 && taskGateFails f32 call 0xC8 11 0x70 && taskGateFails f32 call 0xD0 10 0x78 &&
      taskGateFails f32 call 0xE0 13 0x28) = true ∧
    gateFails f32u false 0x33 13 8 = true ∧
    gateFails { f32u with tr := { f32u.tr with limit := 10 } } true 0x33 10 0x28 = true ∧
    (f32u.innerFault 0 6).isNone = true ∧
    (({ f32u with tr := { f32u.tr with limit := 11 } } : State).innerFault 0 6).isNone = true ∧
    gateFails (poke f32u 0x2008 [0]) true 0x33 10 0 = true ∧ gateFails (poke f32u 0x2008 [0x60]) true 0x33 12 0x60 = true ∧
    (f32.descFor 0xB0).any (fun g => !g.s && g.typ == 5 && g.p && !f32.useDenied 0xB0 g && !isNull g.gateSel &&
      !ti g.gateSel && (f32.descFor g.gateSel).any fun d => !d.s && d.typ == 1) = true := by decide +kernel

/-! Task switches: two whole TSSs in RAM. -/

/-- F32 with a new task in the TSS of selector 50H: CS:EIP 0008H:00030000H, SS:ESP 0010H:00007000H, ES and DS 0010H. -/
def t32 : State :=
  poke (poke (poke f32 0x2120 [0, 0, 3, 0, 2]) 0x2138 [0, 0x70]) 0x2148 [0x10, 0, 0, 0, 8, 0, 0, 0, 0x10, 0, 0, 0, 0x10]

/-- T32 with the SS of the new task null: the switch is committed, then fails. -/
def t32bad : State := poke t32 0x2150 [0]

/-- The new TSS by its selector. -/
def tss50 : Desc := { raw := 0x0000890021000067, addr := 0x1050 }

/-- The checks of the new task pass. -/
def switches : TaskCheck → Bool
  | .ok _ => true
  | .error _ => false

/-- The checks fail with this exception, in a state without regions and without paging. -/
def switchFails (vec : Byte) (code : Word) : TaskCheck → Bool
  | .ok _ => false
  | .error (t, v, c) => v == vec && c == code && t.physMap.isEmpty && !t.pg

theorem exists_switched {c : TaskCheck} (h : switches c = true) : ∃ t, c = .ok t := by
  cases c with
  | ok t => exact ⟨t, rfl⟩
  | error e => exact absurd h (by simp [switches])

/-- The checks pass, and the error code can be pushed in the new task. -/
def takesErr (err : Option Word) : TaskCheck → Bool
  | .ok t => t.canErr err
  | .error _ => false

theorem exists_canErr {c : TaskCheck} {err : Option Word} (h : takesErr err c = true) :
    ∃ t, c = .ok t ∧ t.canErr err = true := by
  cases c with
  | ok t => exact ⟨t, rfl, h⟩
  | error e => exact absurd h (by simp [takesErr])

theorem tableRam_of_flat {t : State} (hm : t.physMap = []) (hp : t.pg = false) (q : Word) : t.tableRam q = true := by
  have h : ∀ pa, t.kindAt pa = .ram := fun pa => by simp [State.kindAt, hm]
  unfold State.tableRam
  split
  · rfl
  · simp [hp, h]

theorem exists_switchFailed {vec : Byte} {code : Word} {c : TaskCheck} (h : switchFails vec code c = true) :
    ∃ t, c = .error (t, vec, code) ∧ ∀ q, t.tableRam q = true := by
  obtain ⟨t, v, k⟩ | t := c
  · simp only [switchFails, Bool.and_eq_true, beq_iff_eq, List.isEmpty_iff, Bool.not_eq_true'] at h
    obtain ⟨⟨⟨rfl, rfl⟩, hm⟩, hp⟩ := h
    exact ⟨t, rfl, tableRam_of_flat hm hp⟩
  · exact absurd h (by simp [switchFails])

/-- JMP and CALL to the TSS and to the task gate: the descriptor is reached, the new task passes its checks. -/
theorem witness_FarTransfersAndReturns_switch (call : Bool) :
    let k : SwitchKind := if call then .call else .jmp
    (t32.pe = true ∧ isNull 0x50 = false ∧ ti 0x50 = false ∧ t32.descFor 0x50 = some tss50 ∧ tss50.isFreeTss = true ∧
      t32.useDenied 0x50 tss50 = false ∧ t32.canSwitch tss50 k = true ∧ t32bad.canSwitch tss50 k = true ∧
      t32bad.descFor 0x50 = some tss50) ∧
    (t32.descFor 0x80).any (fun g => !g.s && g.typ == 5 && g.p && g.gateSel == 0x50 && !t32.useDenied 0x80 g) = true ∧
    (∃ t, t32.switchTo 0x50 tss50 k t32.nextEip t32.eflags = .ok t) ∧
    ∃ t, t32bad.switchTo 0x50 tss50 k t32bad.nextEip t32bad.eflags = .error (t, 10, 0) ∧ ∀ q, t.tableRam q = true := by
  cases call
  all_goals
    exact ⟨by decide +kernel, by decide +kernel, exists_switched (by decide +kernel),
      exists_switchFailed (by decide +kernel)⟩

/-- T32 with a task gate to 50H for the vector `v`. -/
def taskVector (v : Nat) (access : Byte) : State :=
  poke t32 (0x3000 + BitVec.ofNat 32 (8 * v)) [0, 0, 0x50, 0, 0, access, 0, 0]

/-- Vector 13 with its error code pushed in the new task. -/
theorem witness_ExceptionEntry_task :
    let s := taskVector 13 0x85
    (s.pe = true ∧ s.descFor 0x50 = some tss50 ∧ s.canSwitch tss50 .int = true ∧ isNull 0x50 = false ∧ ti 0x50 = false ∧
      tss50.isFreeTss = true ∧ (s.gateFor 13).any (fun g => !g.s && g.typ == 5 && g.p && g.gateSel == 0x50) = true) ∧
    ∃ t, ({ s with run := .running } : State).switchTo 0x50 tss50 .int s.eip (flagsImage s.eflags 13 .exception) = .ok t ∧
      t.canErr (some 0) = true :=
  ⟨by decide +kernel, exists_canErr (by decide +kernel)⟩

/-- INT n, INT 3 and INTO through a task gate; a gate of level 0 from level 3. -/
theorem witness_SoftwareInterrupts_task :
    (∀ v ∈ [3, 4, 48], let s := (taskVector v 0x85).putFlag 11 true
      s.pe = true ∧ s.of = true ∧ s.descFor 0x50 = some tss50 ∧ s.canSwitch tss50 .int = true ∧
      (s.gateFor (BitVec.ofNat 8 v)).any (fun g => !g.s && g.typ == 5 && g.p && decide (s.cpl.toNat ≤ g.dpl.toNat) &&
        g.gateSel == 0x50) = true ∧
      switches (s.switchTo 0x50 tss50 .int s.nextEip s.eflags) = true) ∧
    (∀ v ∈ [3, 4, 48], ∀ a ∈ [0x85, 0x8E, 0x8F], let s : State := { taskVector v a with cpl := 3, segs := e32u.segs }
      s.pe = true ∧ s.ctx.lock = false ∧
      (s.gateFor (BitVec.ofNat 8 v)).any (fun g => !g.s && (g.typ == 5 || g.typ == 14 || g.typ == 15) &&
        decide (g.dpl.toNat < s.cpl.toNat)) = true) := by decide +kernel

/-- The switch of INT n that is committed and then fails in the new task. -/
theorem witness_SoftwareInterrupts_task_fails :
    let s := poke (taskVector 48 0x85) 0x2150 [0]
    s.ctx.lock = false ∧ s.entersTask 48 .software { raw := 0x0000850000500000, addr := 0x3180 } tss50 ∧
      ∃ t, s.switchTo 0x50 tss50 .int s.nextEip s.eflags = .error (t, 10, 0) ∧ ∀ q, t.tableRam q = true :=
  ⟨by decide +kernel, by unfold State.entersTask; decide +kernel, exists_switchFailed (by decide +kernel)⟩

/-- E32U with a gate for the vector `v`, open to level 3, to 0008H:00050100H. -/
def innerVector (v : Nat) : State := poke e32u (0x3000 + BitVec.ofNat 32 (8 * v)) [0, 1, 8, 0, 0, 0xEE, 5, 0]

/-- That gate. -/
def innerGate (v : Nat) : Desc := { raw := 0x0005EE0000080100, addr := 0x3000 + BitVec.ofNat 32 (8 * v) }

/-- The code and the stack segment of level 0. -/
def code0 : Desc := { raw := 0x00CF9B000000FFFF, addr := 0x1008 }
def data0 : Desc := { raw := 0x00CF93000000FFFF, addr := 0x1010 }

/-- INT n, INT 3 and INTO from level 3 to level 0. -/
theorem witness_SoftwareInterrupts_inner :
    (∀ v ∈ [3, 4, 48], (innerVector v).entersInner (BitVec.ofNat 8 v) .software none (innerGate v) code0 data0) ∧
    ((innerVector 4).putFlag 11 true).of = true ∧ (innerVector 3).ctx.lock = false ∧ (innerGate 3).s = false := by
  unfold State.entersInner
  decide +kernel

/-- T32 in a nested task, with the back link `link` and the TSS of 50H of the type `typ`. -/
def nested (link : Word) (access : Byte) : State :=
  let s := poke (poke t32 0x2000 (leBytes 2 link)) 0x1055 [access]
  { s with eflags := s.eflags ||| 0x4000 }

/-- S as IRET leaves it to the switch. -/
def ending (s : State) : State := { s with nmiLatch := false, ctx := { s.ctx with keepRF := true } }

/-- A back link that is null, in the LDT, outside the GDT, to a free TSS, to a busy 80286 TSS, to an absent one, and to a
busy one that is entered or fails its checks. -/
theorem witness_ReturnFromException_task :
    ([0#16, 3#16, 0x54#16, 0x50#16].all fun l => [0x89#8, 0x83, 0x0B, 0x8B].all fun a =>
      let s := nested l a
      !s.ctx.lock && s.pe && s.nt && !s.pg && s.ramAt s.tr.base 2 && (s.valueAt 16 (addrsFrom s.tr.base 2) : Word) == l) =
      true ∧
    ((nested 0x100 0x8B).tableRam 0x100 = true ∧ (nested 0x100 0x8B).descFor 0x100 = none) ∧
    (isNull 0 = true ∧ isNull 3 = true ∧ isNull 0x54 = false ∧ ti 0x54 = true ∧ isNull 0x50 = false ∧ ti 0x50 = false) ∧
    ([(0x89#8, 9#4, true), (0x83#8, 3#4, true), (0x0B#8, 11#4, false), (0x8B#8, 11#4, true)].all fun a =>
      ((nested 0x50 a.1).descFor 0x50).any fun d => !d.s && d.typ == a.2.1 && d.p == a.2.2) = true ∧
    ((nested 0x50 0x8B).descFor 0x50).any (fun d => (nested 0x50 0x8B).canSwitch d .iret &&
      switches ((ending (nested 0x50 0x8B)).switchTo 0x50 d .iret (nested 0x50 0x8B).nextEip 0x4002)) = true ∧
    ((nested 0x50 0x8B).descFor 0x50).any (fun d => (poke (nested 0x50 0x8B) 0x2150 [0]).canSwitch d .iret &&
      switchFails 10 0 ((ending (poke (nested 0x50 0x8B) 0x2150 [0])).switchTo 0x50 d .iret (nested 0x50 0x8B).nextEip
        0x4002)) = true ∧ (nested 0x50 0x8B).eflags = 0x4002 := by decide +kernel

/-- P32 with a TLB entry of way 2 for 00403ABCH, frame ABCH. -/
def hit32 (d u w : Bool) : State :=
  p32.setTlbEntry 0x00403ABC 2 { tag := tlbTag 0x00403ABC, v := true, d := d, u := u, w := w, frame := 0xABC }

/-- A hit that allows every access; one with D = 0, behind which the tables are walked; hits that forbid a user access and
a user write. -/
theorem witness_TlbHits :
    (∀ d ∈ [true, false], ∀ u ∈ [true, false], ∀ w ∈ [true, false],
      (hit32 d u w).pg = true ∧ (hit32 d u w).tlbDup.contains (tlbTag 0x00403ABC) = false ∧
      (hit32 d u w).tlbHits 0x00403ABC = [2] ∧ ((hit32 d u w).tlbEntry 0x00403ABC 2).d = d ∧
      ((hit32 d u w).tlbEntry 0x00403ABC 2).u = u ∧ ((hit32 d u w).tlbEntry 0x00403ABC 2).w = w) ∧
    (let s := hit32 false true true
     Memory.wf s.mem = true ∧ s.tlb.length = 32 ∧ s.pdeAt 0x00403ABC ≠ s.pteAt 0x00403ABC ∧
     (s.pde 0x00403ABC).getLsbD 0 = true ∧ (s.pte 0x00403ABC).getLsbD 0 = true ∧
     s.pageForbids 0x00403ABC true true = false) ∧
    (hit32 false true true).ramD ((hit32 false true true).pdeAt 0x00403ABC) ∧
    (hit32 false true true).ramD ((hit32 false true true).pteAt 0x00403ABC) :=
  ⟨by decide +kernel, by decide +kernel, of_all (by decide +kernel), of_all (by decide +kernel)⟩

/-- Every form, one byte past the end of the code segment: the count is not 0 after the decrement, or is 0; both values of
ZF; a branch that is taken and one that is not. -/
theorem witness_BranchPastLimitFaults :
    let s := short32.setGpr .ebx 0x10010
    (s.ctx.lock = false ∧ s.inCode (s.branchTo (ib8 0x10)) = false ∧ s.inCode (s.branchTo (jv32 0x10)) = false ∧
      s.cond .ne = true ∧ s.count = 0 ∧ s.decCount.count ≠ 0 ∧ s.zf = false ∧ (s.putFlag 6 true).zf = true ∧
      (s.setGpr .ecx 1).decCount.count = 0 ∧ s.okV s.osz (.reg .ebx) false = true ∧
      s.inCode ((s.getV s.osz (.reg .ebx)).setWidth 32) = false) ∧
    (let t := poke short32 0x8000 [0x10, 0, 1, 0]
     t.ctx.lock = false ∧ t.canPop t.oszBytes = true ∧ t.inCode (t.top t.oszBytes 32) = false) ∧
    (∀ u ∈ [{ e32 with eipOver := true }, { short32 with eip := 0x10010 }],
      u.resetPin = false ∧ u.run = .running ∧ u.pendingEvent = none ∧
        (u.eipOver = true ∨ u.segs.cs.limit.toNat < u.eip.toNat)) ∧
    short32.segs.cs.limit = 0x1000F := by decide +kernel

/-- E16R running or halted, with the requests given. -/
def asked (r : RunState) (trap nmi : Bool) (intr : Option Byte) : State :=
  { e16 with run := r, trapPending := trap, nmi := nmi, intr := intr }

/-- E16R as it is entered after NMI is acknowledged, or vector 33, whose request is also in the history. -/
def nmiTaken : State := { e16 with nmiLatch := true, intr := some 33 }
def intrTaken : State := { e16 with ioLog := [.intAck 33] }

/-- The debug trap, NMI and an interrupt request, running and halted. -/
theorem witness_EventPriority_chosen : ([RunState.running, .halted].all fun r =>
    (asked r true true (some 33)).pendingEvent == some { vec := 1, kind := .exception, err := none, taking := .trap } &&
      (asked r false true (some 33)).pendingEvent == some { vec := 2, kind := .external, err := none, taking := .nmi } &&
      (asked r false false (some 33)).pendingEvent == some { vec := 33, kind := .external, err := none, taking := .intr } &&
      (asked r false false none).pendingEvent.isNone) = true ∧
    (asked .shutdown true true (some 33)).pendingEvent = none ∧ e16.resetPin = false ∧ e16.ioLog = [] := by decide +kernel

/-- Their delivery. -/
theorem witness_EventPriority_taken :
    (asked .running false true (some 33)).canEnter 1 .exception none = true ∧ nmiTaken.canEnter 2 .external none = true ∧
    intrTaken.canEnter 33 .external none = true := by decide +kernel

/-- `s` with the debug trap, NMI or the request of vector 33 to take, and as it is entered after the acknowledge. -/
def trapAsked (s : State) : State := { s with trapPending := true }
def nmiAsked (s : State) : State := { s with nmi := true }
def nmiDone (s : State) : State := { s with nmiLatch := true }
def intrAsked (s : State) : State := { s with intr := some 33 }
def intrDone (s : State) : State := { s with ioLog := [.intAck 33] }

/-- T32 with interrupts enabled. -/
def t32on (v : Nat) : State := (taskVector v 0x85).putFlag 9 true

/-- Their delivery to a handler of an inner level, and through a task gate. -/
theorem witness_EventPriority_inner_and_task :
    ([innerVector 1, t32on 1].all fun s =>
      (trapAsked s).pendingEvent == some { vec := 1, kind := .exception, err := none, taking := .trap }) = true ∧
    ([innerVector 2, t32on 2].all fun s =>
      (nmiAsked s).pendingEvent == some { vec := 2, kind := .external, err := none, taking := .nmi }) = true ∧
    ([innerVector 33, t32on 33].all fun s =>
      (intrAsked s).pendingEvent == some { vec := 33, kind := .external, err := none, taking := .intr }) = true ∧
    (innerVector 1).entersInner 1 .exception none (innerGate 1) code0 data0 ∧
    (nmiDone (innerVector 2)).entersInner 2 .external none (innerGate 2) code0 data0 ∧
    (intrDone (innerVector 33)).entersInner 33 .external none (innerGate 33) code0 data0 ∧
    (t32on 1).entersTask 1 .exception { raw := 0x0000850000500000, addr := 0x3008 } tss50 ∧
    (nmiDone (t32on 2)).entersTask 2 .external { raw := 0x0000850000500000, addr := 0x3010 } tss50 ∧
    (intrDone (t32on 33)).entersTask 33 .external { raw := 0x0000850000500000, addr := 0x3108 } tss50 := by
  unfold State.entersInner State.entersTask
  decide +kernel

/-- The new task passes its checks. -/
theorem witness_EventPriority_task :
    switches ((t32on 1).switchTo 0x50 tss50 .int 0x10000 0x202) = true ∧
    switches ((nmiDone (t32on 2)).switchTo 0x50 tss50 .int 0x10000 0x202) = true ∧
    switches ((intrDone (t32on 33)).switchTo 0x50 tss50 .int 0x10000 0x202) = true ∧
    (t32on 1).eip = 0x10000 ∧ (t32on 1).eflags = 0x202 := by decide +kernel

/-- The last offset that goes on and the first that does not, in 32-bit code, in real-address mode, and in 16-bit code of
protected mode with the limit below and above. -/
theorem witness_CompletionOfInstruction :
    let one (s : State) (eip : Dword) : State := { s with eip := eip, ctx := { s.ctx with len := 1 } }
    let p16 (limit : Dword) : State := { e32 with segs := { e32.segs with cs := { e32.segs.cs with db := false, limit } } }
    let past (s : State) : Nat := s.eip.toNat + s.ctx.len
    ({ e32 with eflags := 0x102 } : State).tf = true ∧
    ((one e32 0xFFFFFFFE).segs.cs.db = true ∧ past (one e32 0xFFFFFFFE) = 0xFFFFFFFF ∧
      past (one e32 0xFFFFFFFF) = 0x100000000) ∧
    ((one e16 0xFFFE).segs.cs.db = false ∧ (one e16 0xFFFE).pe = false ∧ past (one e16 0xFFFE) = 0xFFFF ∧
      past (one e16 0xFFFF) = 0x10000) ∧
    ([0xFFFF#32, 0x10000#32].all fun l => let s := one (p16 l) 0xFFFF
      !s.segs.cs.db && s.pe && past s == 0x10000) = true := by decide +kernel

/-- Every form at a closed port or at ports of which one is closed, with no repetition and with a count. -/
theorem witness_IoMapRefuses :
    let s := io32.setGpr .edx 41
    s.ctx.lock = false ∧ s.portsFree = false ∧ s.tssRam = true ∧ s.mapAllows ((0x29 : Byte).setWidth 16) 1 = false ∧
    s.mapAllows ((0x28 : Byte).setWidth 16) 1 = true ∧ s.mapAllows ((0x26 : Byte).setWidth 16) (s.osz / 8) = false ∧
    s.mapAllows (s.gprLow 16 .edx) 1 = false ∧ s.mapAllows (s.gprLow 16 .edx) (s.osz / 8) = false ∧ s.ctx.rep = none ∧
    (repeated (s.setGpr .ecx 1) .rep).count ≠ 0 := by decide +kernel

/-- Both adjustments, one and none; AAM by the largest and by no base. -/
theorem witness_DecimalAdjustments :
    w32.ctx.lock = false ∧ (1 : Byte) ≠ 0 ∧ (0xFF : Byte) ≠ 0 ∧ evenOnes (0 : Byte) = true ∧ evenOnes (1 : Byte) = false ∧
    evenOnes (0xFF : Byte) = true := by decide +kernel

/-- Byte operations reach the sizes for which INC, DEC and NEG are described: their corner values. -/
theorem witness_UnaryFlags :
    4 < 8 ∧ (Unary.inc.result w32 0x7F#8).2.of = true ∧ (Unary.inc.result w32 0xFF#8).1 = 0#8 ∧
    (Unary.dec.result w32 0x80#8).2.of = true ∧ (Unary.dec.result w32 0#8).1 = 0xFF#8 ∧
    (Unary.neg.result w32 0x80#8).2.of = true ∧ (Unary.neg.result w32 0#8).2.cf = false ∧
    (Unary.not.result w32 0x0F#8).1 = 0xF0#8 := by decide +kernel

/-- A popped image of all ones over EFLAGS 2: at level 0, at level 3, and from a 32-bit image of IRET. -/
theorem test_popped_flags :
    writeFlags 2 0xFFFFFFFF false (some 0) = 0x7FD7 ∧ writeFlags 2 0xFFFFFFFF true (some 3) = 0x14DD7 ∧
    writeFlags 0x3002 0 false (some 3) = 0x3002 := by decide +kernel

/-! ## Single steps of task switches and events -/

/-- A TSS of 103 bytes is refused in the outgoing task, through gate 10. -/
theorem test_V47_3_jmp_short_tss : runs (poke t32 0x3051 [1, 8, 0, 0, 0x8E, 5]) [0xEA, 0, 0, 0, 0, 0x78, 0]
    (fun s => (s.tr.sel, s.eip, s.gpr .esp)) = some (0x28, 0x50100, 0x7FF0) := by decide +kernel
/-- The old TSS loses its busy bit, the new one gains it; the old registers are saved. -/
theorem test_V47_4_jmp_task : runs t32 [0xEA, 0, 0, 0, 0, 0x50, 0]
    (fun s => (s.eip, s.gpr .esp, s.tr.sel, s.byteAt 0x102D, s.byteAt 0x1055)) = some (0x30000, 0x7000, 0x50, 0x89, 0x8B) ∧
    runs t32 [0xEA, 0, 0, 0, 0, 0x50, 0] (fun s => (s.nt, s.ts, dword s 0x2020, dword s 0x2038, word s 0x2100)) =
      some (false, true, 0x10007, 0x8000, 0) := by decide +kernel
/-- The old TSS stays busy and the new one links back to it. -/
theorem test_V47_5_call_task : runs t32 [0x9A, 0, 0, 0, 0, 0x50, 0]
    (fun s => (s.nt, s.byteAt 0x102D, s.byteAt 0x1055, word s 0x2100)) = some (true, 0x8B, 0x8B, 0x28) := by decide +kernel
/-- Exception 13 through a task gate whose new task has a DS outside the GDT: the switch is committed, #TS is met at the first
instruction of the new task, and the double fault is delivered from there, through gate 8 of the same level (47_multitasking.md
R885; the model's choice, log 40). -/
theorem test_double_fault_in_new_task :
    let s := poke (poke (taskVector 13 0x85) 0x3040 [0, 1, 8, 0, 0, 0x8E, 5, 0]) 0x2154 [0, 1]
    runs { s with eipOver := true } [] (fun s => (s.eip, s.tr.sel, s.gpr .esp)) = some (0x50100, 0x50, 0x6FF0) ∧
    (match deliver 13 .exception (some 0) s.eip { cur := s, base := s, ext := true } with
     | .error (.raise x) t => some (x.vec, t.base.eip, t.base.tr.sel, dword t.base 0x2020)
     | _ => none) = some (10, 0x30000, 0x50, 0x10000) := by decide +kernel
/-- IRET with NT = 1 where TR was never loaded: a back link in the LDT at linear address 0 is refused, and one to a busy TSS
ends in the limit of TR (47_multitasking.md R845, R880, R871; the model's choice, log 41). -/
theorem test_iret_unusable_tr : ([(4#8, 4#16), (0x28, 0)].all fun c =>
    let s := poke { e32 with tr := .unusable, eflags := 0x4002 } 0 [c.1]
    match taskReturn (Tx.start s) with
    | .error (.raise x) t => x == { vec := 10, err := some c.2 } && t.base == s
    | _ => false) = true := by decide +kernel
/-- The slot above SP = FFFEH is at offset 0 (20_memory.md R176). -/
theorem test_retf_wraps :
    let s := { e16 with segs := { e16.segs with ss := { e16.segs.ss with base := 0x40000, limit := 0x1FFFF } } }
    runs (poke (poke (s.setGpr .esp 0xFFFE) 0x4FFFE [0x34, 0x12]) 0x40000 [0, 0x20]) [0xCB]
      (fun s => (s.eip, s.segs.cs.sel, s.sp)) = some (0x1234, 0x2000, 2) := by decide +kernel
/-- RETF with a 32-bit operand size takes six bytes in real-address mode: SP = FFFAH is enough, SP = FFFBH is not
(43_control_transfer.md R580). -/
theorem test_retf_real_six_bytes :
    runs (poke (e16.setGpr .esp 0xFFFA) 0xFFFA [0x34, 0x12, 0, 0, 0, 0x20]) [0x66, 0xCB]
      (fun s => (s.eip, s.segs.cs.sel, s.sp)) = some (0x1234, 0x2000, 2) ∧
    runs (poke (e16.setGpr .esp 0xFFFB) 0x30 [0x34, 0x12, 0, 0x20]) [0x66, 0xCB] (fun s => (s.eip, s.segs.cs.sel)) =
      some (0x1234, 0x2000) := by decide +kernel
/-- NMI through vector 2: 5000H:0200H stands in no other entry of E16R. -/
theorem test_nmi_taken : runs (poke { e16 with nmi := true, run := .halted } 8 [0x00, 0x02, 0x00, 0x50]) []
    (fun s => (s.eip, s.segs.cs.sel, s.nmiLatch, s.nmi, s.if')) = some (0x200, 0x5000, true, false, false) := by
  decide +kernel
/-- Past FFFFFFFFH execution does not wrap: the next step is exception 13, through gate 13 of E32 (10_state.md R52). -/
theorem test_eip_over : runs { e32 with eip := 0xFFFFFFFF } [0x90] (fun s => (s.eip, s.eipOver)) = some (0, true) ∧
    runs { e32 with eipOver := true } [] (fun s => (s.eip, s.eipOver, s.gpr .esp)) = some (0x50100, false, 0x7FF0) := by
  decide +kernel

end Sys2Proof.Tests
end

section
/-! PROOFS. Partial writes bit by bit, the fixed bits of EFLAGS after every write the model makes, and the obligations of
tier 1 about reset (O5, O7), the partial registers (O16) and the end of an instruction (O48). -/

namespace Sys2Proof.Machine

/-! ## Partial writes, bit by bit -/

/-- Writing one bit changes that bit alone. -/
theorem getLsbD_putBit {n : Nat} (v : BitVec n) (i j : Nat) (b : Bool) :
    (putBit v i b).getLsbD j = if j = i then (decide (i < n) && b) else v.getLsbD j := by
  have hone : 1#n <<< i = BitVec.twoPow n i := rfl
  unfold putBit
  rw [hone]
  by_cases hj : j < n
  · by_cases hji : i = j
    · subst hji
      cases b <;> simp [hj]
    · cases b <;> simp [hj, Ne.symm hji]
  · have hn : n ≤ j := by omega
    rw [BitVec.getLsbD_of_ge _ _ hn, BitVec.getLsbD_of_ge _ _ hn]
    split
    · simp [show ¬ i < n by omega]
    · rfl

/-- Writing a field changes its own bits alone. -/
theorem getLsbD_putField {n w : Nat} (v : BitVec n) (lo j : Nat) (x : BitVec w) (hj : j < n) :
    (putField v lo x).getLsbD j = if lo ≤ j ∧ j < lo + w then x.getLsbD (j - lo) else v.getLsbD j := by
  unfold putField
  simp only [BitVec.getLsbD_or, BitVec.getLsbD_and, BitVec.getLsbD_not, BitVec.getLsbD_shiftLeft,
    BitVec.getLsbD_setWidth, BitVec.getLsbD_allOnes, hj, decide_true, Bool.true_and]
  by_cases hlo : j < lo
  · simp [hlo, show ¬ lo ≤ j by omega]
  · have hjn : j - lo < n := by omega
    by_cases hw : j - lo < w
    · simp [hlo, hjn, hw, show lo ≤ j by omega, show j < lo + w by omega]
    · simp [hlo, hjn, hw, show ¬ j < lo + w by omega, BitVec.getLsbD_of_ge x (j - lo) (by omega)]

/-- A bit outside a mask can be written without a change under the mask. -/
theorem putBit_and_of_clear {n : Nat} (v m : BitVec n) (i : Nat) (b : Bool) (hm : m.getLsbD i = false) :
    putBit v i b &&& m = v &&& m := by
  apply BitVec.eq_of_getLsbD_eq
  intro j _
  rw [BitVec.getLsbD_and, BitVec.getLsbD_and, getLsbD_putBit]
  split
  · rename_i h
    rw [h, hm, Bool.and_false, Bool.and_false]
  · rfl

/-- A field just written reads back. -/
theorem extractLsb'_putField {n w : Nat} (v : BitVec n) (lo : Nat) (x : BitVec w) (h : lo + w ≤ n) :
    (putField v lo x).extractLsb' lo w = x := by
  apply BitVec.eq_of_getLsbD_eq
  intro i hi
  rw [BitVec.getLsbD_extractLsb', getLsbD_putField v lo _ x (by omega), if_pos (by omega)]
  simp [hi]

/-- The bits beside a field stay when it is written. -/
theorem extractLsb'_putField_beside {n w : Nat} (v : BitVec n) (lo k l : Nat) (x : BitVec w)
    (h : k + l ≤ lo ∨ lo + w ≤ k) : (putField v lo x).extractLsb' k l = v.extractLsb' k l := by
  apply BitVec.eq_of_getLsbD_eq
  intro i hi
  rw [BitVec.getLsbD_extractLsb', BitVec.getLsbD_extractLsb']
  by_cases hn : k + i < n
  · rw [getLsbD_putField v lo _ x hn, if_neg (by omega)]
  · rw [BitVec.getLsbD_of_ge _ _ (by omega), BitVec.getLsbD_of_ge v _ (by omega)]

/-- A word written to a doubleword leaves its upper half (10_state.md R42). -/
theorem putLow_word (v : Dword) (x : Word) : putLow v x = v.extractLsb' 16 16 ++ x := by
  apply BitVec.eq_of_getLsbD_eq
  intro i hi
  rw [putLow, getLsbD_putField v 0 i x hi, BitVec.getLsbD_append]
  by_cases h : i < 16
  · simp [h]
  · simp [h, show i - 16 < 16 by omega, show 16 + (i - 16) = i by omega]

/-- The byte registers: the one written reads back, the others keep their bits (10_state.md R43). -/
theorem setReg8_reg8 (s : State) (r q : Reg8) (v : Byte) :
    (s.setReg8 r v).reg8 q = if q = r then v else s.reg8 q := by
  unfold State.reg8 State.setReg8
  rw [setGpr_gpr]
  by_cases hq : q = r
  · subst hq
    rw [if_pos rfl, if_pos rfl]
    exact extractLsb'_putField _ _ v (by cases q <;> decide)
  · rw [if_neg hq]
    split
    · rename_i hg
      rw [extractLsb'_putField_beside, hg]
      cases r <;> cases q <;> simp_all [Reg8.home]
    · rfl

/-- Writing a byte register leaves the upper half of every general register (10_state.md R43). -/
theorem setReg8_upper (s : State) (r : Reg8) (q : Gpr) (v : Byte) :
    ((s.setReg8 r v).gpr q).extractLsb' 16 16 = (s.gpr q).extractLsb' 16 16 := by
  unfold State.setReg8
  rw [setGpr_gpr]
  split
  · rename_i hq
    rw [hq]
    exact extractLsb'_putField_beside _ _ _ _ v (.inr (by cases r <;> decide))
  · rfl

/-- Writing a byte register leaves the general registers it is no part of. -/
theorem setReg8_gpr_of_ne (s : State) (r : Reg8) (q : Gpr) (v : Byte) (h : q ≠ (Reg8.home r).1) :
    (s.setReg8 r v).gpr q = s.gpr q := by
  unfold State.setReg8
  rw [setGpr_gpr, if_neg h]

/-! ## EFLAGS, CR0 and DR7 after a write -/

/-- EFLAGS are legal where the bits that R55 fixes have their values and VM is 0 (10_state.md R55, R63). -/
theorem flagsLegal_iff (s : State) : s.flagsLegal = true ↔ s.eflags &&& 0xFFFE802A = 2 := by
  simp [State.flagsLegal]

/-- A flag outside the fixed bits can be written: EFLAGS stay as legal as they were. -/
theorem putBit_fixed (v : Dword) (i : Nat) (b : Bool) (hi : (0xFFFE802A : Dword).getLsbD i = false) :
    putBit v i b &&& 0xFFFE802A = v &&& 0xFFFE802A := putBit_and_of_clear v _ i b hi

/-- The six status flags are none of the fixed bits (10_state.md R56). -/
theorem into_fixed (f : Flags) (v : Dword) : f.into v &&& 0xFFFE802A = v &&& 0xFFFE802A := by
  unfold Flags.into
  rw [putBit_fixed _ 11 _ rfl, putBit_fixed _ 7 _ rfl, putBit_fixed _ 6 _ rfl, putBit_fixed _ 4 _ rfl,
    putBit_fixed _ 2 _ rfl, putBit_fixed _ 0 _ rfl]

/-- Nor are TF, NT, RF and IF, which the entry to a handler clears (60_exceptions.md R947). -/
theorem entryFlags_fixed (v : Dword) (c : Bool) : entryFlags v c &&& 0xFFFE802A = v &&& 0xFFFE802A := by
  have h : putBit (putBit (putBit v 8 false) 14 false) 16 false &&& 0xFFFE802A = v &&& 0xFFFE802A := by
    rw [putBit_fixed _ 16 _ rfl, putBit_fixed _ 14 _ rfl, putBit_fixed _ 8 _ rfl]
  unfold entryFlags
  split
  · exact (putBit_fixed _ 9 _ rfl).trans h
  · exact h

/-- With the reserved bits at their fixed values, only VM can make EFLAGS illegal. -/
theorem fixFlags_legal (v : Dword) (h : v.getLsbD 17 = false) : fixFlags v &&& 0xFFFE802A = 2 := by
  apply BitVec.eq_of_getLsbD_eq
  intro j hj
  unfold fixFlags
  rw [BitVec.getLsbD_and, BitVec.getLsbD_or, BitVec.getLsbD_and]
  by_cases h17 : j = 17
  · subst h17
    rw [h]
    rfl
  · have hm : ((0x37FD5 : Dword).getLsbD j && (0xFFFE802A : Dword).getLsbD j) = false ∧
        ((2 : Dword).getLsbD j && (0xFFFE802A : Dword).getLsbD j) = (2 : Dword).getLsbD j := by
      revert h17
      clear h
      revert j
      decide
    rw [Bool.and_or_distrib_right, Bool.and_assoc, hm.1, hm.2, Bool.and_false, Bool.false_or]

/-- VM is none of the bits that `fixFlags` fixes. -/
theorem fixFlags_vm (v : Dword) : (fixFlags v).getLsbD 17 = v.getLsbD 17 := by
  unfold fixFlags
  rw [BitVec.getLsbD_or, BitVec.getLsbD_and]
  exact (Bool.or_false _).trans (Bool.and_true _)

/-- Legal EFLAGS have VM = 0. -/
theorem vm_of_legal {v : Dword} (h : v &&& 0xFFFE802A = 2) : v.getLsbD 17 = false := by
  have := congrArg (·.getLsbD 17) h
  simpa using this

/-- The flags that IRET and POPF leave are legal where the old ones had VM = 0: no image loads VM
(43_control_transfer.md R612). -/
theorem writeFlags_legal (old fl : Dword) (wide : Bool) (lvl : Option (BitVec 2)) (h : old.getLsbD 17 = false) :
    writeFlags old fl wide lvl &&& 0xFFFE802A = 2 := by
  have hbit (v : Dword) (i : Nat) (b : Bool) (hi : 17 ≠ i) : (putBit v i b).getLsbD 17 = v.getLsbD 17 := by
    rw [getLsbD_putBit, if_neg hi]
  have hfield (v : Dword) (lo : Nat) {w : Nat} (x : BitVec w) (hw : lo + w ≤ 17) :
      (putField v lo x).getLsbD 17 = v.getLsbD 17 := by
    rw [getLsbD_putField v lo 17 x (by omega), if_neg (by omega)]
  have hite (c : Prop) [Decidable c] (u v : Dword) (hu : u.getLsbD 17 = false) (hv : v.getLsbD 17 = false) :
      (if c then u else v).getLsbD 17 = false := by
    split
    · exact hu
    · exact hv
  have h0 : (putField old 0 (fl.extractLsb' 0 9)).getLsbD 17 = false := (hfield _ 0 _ (by decide)).trans h
  unfold writeFlags
  apply fixFlags_legal
  refine hite _ _ _ ((hbit _ 16 _ (by decide)).trans ?_) ?_
  all_goals
    refine (hbit _ 14 _ (by decide)).trans (hite _ _ _ ?_ ((hfield _ 12 _ (by decide)).trans ?_))
    all_goals
      exact (hfield _ 10 _ (by decide)).trans (hite _ _ _ h0 ((hbit _ 9 _ (by decide)).trans h0))

/-! ## The obligations of tier 1 -/

/-- Settles O5: each value is one that `State.reset` writes down. -/
theorem resetState : Obligations.ResetState := by
  unfold Obligations.ResetState
  refine ⟨rfl, rfl, rfl, rfl, rfl, rfl, rfl, fun r hr => ?_, rfl, rfl, rfl⟩
  cases r with
  | cs => exact absurd rfl hr
  | es | ss | ds | fs | gs => rfl

/-- Settles O7: reset memory is empty, and the other parts of the invariant are those of the values after reset. -/
theorem invariantAfterReset : Obligations.InvariantAfterReset :=
  ⟨⟨reset_memory_wf, rfl, rfl, rfl, List.length_replicate ..⟩, fun _ => rfl, rfl⟩

/-- Settles O16: a part of a register is a field of it, and a field written leaves the bits beside it. -/
theorem partialRegisters : Obligations.PartialRegisters := by
  intro s
  refine ⟨fun r v => ⟨?_, fun q => ?_⟩, fun r => ?_, fun r v => ⟨?_, fun q hq => ?_, fun q => ⟨?_, ?_⟩⟩⟩
  · exact BitVec.setWidth_eq_extractLsb' (by decide)
  · rw [State.setGprLow, setGpr_gpr, putLow_word]
  · cases r <;> rfl
  · rw [setReg8_reg8, if_pos rfl]
  · rw [setReg8_reg8, if_neg hq]
  · exact setReg8_upper s r q v
  · exact setReg8_gpr_of_ne s r q v

/-! ## The end of an instruction -/

/-- RF after the end of an instruction stays only where the instruction loads it (10_state.md R62). -/
theorem complete_eflags (s t : State) :
    (complete s t).eflags = if t.ctx.keepRF then t.eflags else putBit t.eflags 16 false := by
  unfold complete
  split <;> split <;> rfl

/-- The single-step trap is pending after an instruction that began with TF = 1 (61_exception_vectors.md R1020). -/
theorem complete_trapPending (s t : State) : (complete s t).trapPending = (s.tf || t.trapPending) := by
  unfold complete
  cases s.tf <;> split <;> rfl

/-- BS in DR6 tells the single-step trap (61_exception_vectors.md R1020). -/
theorem complete_dr6 (s t : State) : (complete s t).dr6 = if s.tf then putBit t.dr6 14 true else t.dr6 := by
  unfold complete
  cases s.tf <;> split <;> rfl

@[simp] theorem complete_ctx (s t : State) : (complete s t).ctx = Ctx.empty := rfl
@[simp] theorem complete_gprs (s t : State) : (complete s t).gprs = t.gprs := by
  unfold complete
  split <;> split <;> rfl
@[simp] theorem complete_segs (s t : State) : (complete s t).segs = t.segs := by
  unfold complete
  split <;> split <;> rfl
@[simp] theorem complete_eip (s t : State) : (complete s t).eip = t.eip := by
  unfold complete
  split <;> split <;> rfl
@[simp] theorem complete_eipOver (s t : State) : (complete s t).eipOver = t.eipOver := by
  unfold complete
  split <;> split <;> rfl
@[simp] theorem complete_mem (s t : State) : (complete s t).mem = t.mem := by
  unfold complete
  split <;> split <;> rfl

/-- EIP after an instruction that goes on is its own next offset, cut to 16 bits where a 16-bit segment lets execution
wrap (10_state.md R52, log 11). -/
theorem advance_eip (t : State) :
    t.advance.eip = if t.segs.cs.db || decide (t.segs.cs.limit.toNat < t.nextEip.toNat) then t.nextEip
      else t.nextEip &&& 0xFFFF := rfl

/-- The next offset where it does not exceed 32 bits. -/
theorem nextEip_toNat (t : State) (h : t.eip.toNat + t.ctx.len < 2 ^ 32) :
    t.nextEip.toNat = t.eip.toNat + t.ctx.len := by
  simp only [State.nextEip, BitVec.toNat_add, BitVec.toNat_ofNat]
  omega

/-- A doubleword cut to 16 bits. -/
theorem and_FFFF_toNat (v : Dword) : (v &&& 0xFFFF).toNat = v.toNat % 2 ^ 16 := by
  rw [BitVec.toNat_and]
  exact Nat.and_two_pow_sub_one_eq_mod v.toNat 16

/-- EIP after an instruction of a 16-bit segment that goes on: the wrap at 64K, unless the limit stops execution before
it (10_state.md R52, log 11). -/
theorem advance_eip_16 (t : State) (hd : t.segs.cs.db = false) (h : t.eip.toNat + t.ctx.len < 2 ^ 32) :
    t.advance.eip.toNat = if t.segs.cs.limit.toNat < t.eip.toNat + t.ctx.len then t.eip.toNat + t.ctx.len
      else (t.eip.toNat + t.ctx.len) % 2 ^ 16 := by
  rw [advance_eip, hd, Bool.false_or, nextEip_toNat t h]
  split
  · rename_i hl
    rw [if_pos (of_decide_eq_true hl), nextEip_toNat t h]
  · rename_i hl
    rw [if_neg (by simpa using hl), and_FFFF_toNat, nextEip_toNat t h]

/-- Settles O48: the fields of `complete`, then EIP and `eipOver` of `advance` by the kind of code segment. -/
theorem completionOfInstruction : Obligations.CompletionOfInstruction := by
  intro s t
  refine ⟨rfl, ?_, complete_trapPending s t, fun htf => ?_, complete_gprs s t, complete_segs s t, complete_eip s t,
    complete_mem s t, fun i hi => ?_, ?_⟩
  · unfold State.rf
    rw [complete_eflags]
    cases t.ctx.keepRF
    · rw [if_neg (by decide), getLsbD_putBit, if_pos rfl]
      rfl
    · rfl
  · rw [complete_dr6, if_pos htf, getLsbD_putBit, if_pos rfl]
    rfl
  · rw [complete_eflags]
    split
    · rfl
    · rw [getLsbD_putBit, if_neg hi]
  · have hover : (s.finish t).eipOver = t.runsOver := complete_eipOver s t.advance
    have heip : (s.finish t).eip = t.advance.eip := complete_eip s t.advance
    rw [hover, heip]
    unfold State.runsOver
    refine ⟨fun hd => ⟨fun ha => ⟨?_, ?_⟩, fun ha => ?_⟩, fun hd ha => ⟨?_, ?_⟩,
      fun hd ha => ⟨fun hp => ?_, fun hp hb => ⟨?_, ?_⟩⟩⟩
    · rw [advance_eip, hd, Bool.true_or, if_pos rfl, nextEip_toNat t ha]
    · rw [if_pos hd]
      exact decide_eq_false (by omega)
    · rw [if_pos hd]
      exact decide_eq_true ha
    · rw [advance_eip_16 t hd (by omega)]
      split
      · rfl
      · exact Nat.mod_eq_of_lt (by omega)
    · rw [if_neg (by simp [hd]), decide_eq_false (by omega), Bool.and_false]
    · rw [if_neg (by simp [hd]), hp, decide_eq_true ha]
      rfl
    · rw [advance_eip_16 t hd hb]
    · rw [if_neg (by simp [hd]), hp]
      rfl

end Sys2Proof.Machine
end

section
/-! PROOFS. What one state may lead to: the relation `Lawful`, which every step obeys, and `SameMode`, which
every computation but a write of CR0 obeys. Each update of the state is shown to obey it once; the computations follow by
the lemmas of `Keeps`. -/

set_option Elab.async false

namespace Sys2Proof.Machine

variable {α β : Type} {s t u : State}

/-! ## The relations -/

/-- What every step does to the state: the parts of the invariant stay as the obligations state them, real-address mode
stays at level 0, the environment's history grows, and no free value is used twice. -/
structure Lawful (s t : State) : Prop where
  mem : Memory.wf s.mem = true → Memory.wf t.mem = true
  flags : s.flagsLegal = true → t.flagsLegal = true
  cr0 : s.cr0Legal = true → t.cr0Legal = true
  dr7 : s.noBreakpoint = true → t.noBreakpoint = true
  tlb : s.tlb.length = 32 → t.tlb.length = 32
  level : s.levelLegal → t.levelLegal
  ioLog : s.ioLog <+: t.ioLog
  freeCtr : s.freeCtr ≤ t.freeCtr

/-- The same without a change between real-address and protected mode: what everything but a write of CR0 does. -/
structure SameMode (s t : State) : Prop extends Lawful s t where
  pe : t.pe = s.pe

/-- The fields that the two relations speak of. -/
def State.watched (s : State) :=
  (s.mem, s.eflags, s.cr0, s.cpl, s.dr7, s.tlb, s.ioLog, s.freeCtr)

theorem Lawful.refl (s : State) : Lawful s s := ⟨id, id, id, id, id, id, List.prefix_refl _, Nat.le_refl _⟩

theorem Lawful.trans (h : Lawful s t) (k : Lawful t u) : Lawful s u where
  mem := k.mem ∘ h.mem
  flags := k.flags ∘ h.flags
  cr0 := k.cr0 ∘ h.cr0
  dr7 := k.dr7 ∘ h.dr7
  tlb := k.tlb ∘ h.tlb
  level := k.level ∘ h.level
  ioLog := h.ioLog.trans k.ioLog
  freeCtr := h.freeCtr.trans k.freeCtr

/-- What keeps the invariant: a lawful next state of a state that meets it. -/
theorem Lawful.inv (h : Lawful s t) (hs : s.Inv) : t.Inv := by
  obtain ⟨hm, hf, hc, hd, ht⟩ := hs
  exact ⟨h.mem hm, h.flags hf, h.cr0 hc, h.dr7 hd, h.tlb ht⟩

theorem SameMode.refl (s : State) : SameMode s s := ⟨.refl s, rfl⟩

theorem SameMode.trans (h : SameMode s t) (k : SameMode t u) : SameMode s u :=
  ⟨h.toLawful.trans k.toLawful, k.pe.trans h.pe⟩

/-- A change of fields that nobody watches. -/
theorem SameMode.of_watched (h : t.watched = s.watched) : SameMode s t := by
  simp only [State.watched, Prod.mk.injEq] at h
  obtain ⟨hm, he, hc, hl, hd, ht, hi, hf⟩ := h
  have hpe : t.pe = s.pe := by rw [State.pe, hc, State.pe]
  refine ⟨⟨?_, ?_, ?_, ?_, ?_, ?_, ?_, ?_⟩, hpe⟩
  · rw [hm]; exact id
  · rw [State.flagsLegal, State.flagsLegal, he]; exact id
  · rw [State.cr0Legal, State.cr0Legal, State.pg, State.pg, hpe, hc]; exact id
  · rw [State.noBreakpoint, State.noBreakpoint, hd]; exact id
  · rw [ht]; exact id
  · rw [State.levelLegal, State.levelLegal, hpe, hl]; exact id
  · rw [hi]
  · rw [hf]

theorem Lawful.of_watched (h : t.watched = s.watched) : Lawful s t := (SameMode.of_watched h).toLawful

/-! ## One lemma per update of a watched field -/

/-- Writing memory. -/
theorem SameMode.setMem {m : List Host.Cell} (h : Memory.wf s.mem = true → Memory.wf m = true) :
    SameMode s { s with mem := m } :=
  ⟨⟨h, id, id, id, id, id, List.prefix_refl _, Nat.le_refl _⟩, rfl⟩

/-- Writing EFLAGS. -/
theorem SameMode.setEflags {v : Dword} (h : s.eflags &&& 0xFFFE802A = 2 → v &&& 0xFFFE802A = 2) :
    SameMode s { s with eflags := v } :=
  ⟨⟨id, by simpa only [flagsLegal_iff] using h, id, id, id, id, List.prefix_refl _, Nat.le_refl _⟩, rfl⟩

/-- Writing EFLAGS without a change of the fixed bits. -/
theorem SameMode.setEflags_fixed {v : Dword} (h : v &&& 0xFFFE802A = s.eflags &&& 0xFFFE802A) :
    SameMode s { s with eflags := v } := .setEflags fun hs => h.trans hs

/-- Writing DR7. -/
theorem SameMode.setDr7 {v : Dword} (h : s.dr7 &&& 0x20FF = 0 → v &&& 0x20FF = 0) :
    SameMode s { s with dr7 := v } :=
  ⟨⟨id, id, id, by simpa [State.noBreakpoint] using h, id, id, List.prefix_refl _, Nat.le_refl _⟩, rfl⟩

/-- Writing the TLB. -/
theorem SameMode.setTlb {l : List TlbEntry} (h : l.length = s.tlb.length) : SameMode s { s with tlb := l } :=
  ⟨⟨id, id, id, id, h.trans, id, List.prefix_refl _, Nat.le_refl _⟩, rfl⟩

/-- Changing the level in protected mode. -/
theorem SameMode.setCpl (l : BitVec 2) (hp : s.pe = true) : SameMode s { s with cpl := l } :=
  ⟨⟨id, id, id, id, id, fun _ h => absurd (hp.symm.trans h) (by decide), List.prefix_refl _, Nat.le_refl _⟩, rfl⟩

/-- Writing TS (10_state.md R84). -/
theorem SameMode.setTs (b : Bool) : SameMode s { s with cr0 := putBit s.cr0 3 b } := by
  have hbit (j : Nat) (hj : j ≠ 3) : (putBit s.cr0 3 b).getLsbD j = s.cr0.getLsbD j := by
    rw [getLsbD_putBit, if_neg hj]
  have hpe : State.pe { s with cr0 := putBit s.cr0 3 b } = s.pe := hbit 0 (by decide)
  have hpg : State.pg { s with cr0 := putBit s.cr0 3 b } = s.pg := hbit 31 (by decide)
  have hrest : putBit s.cr0 3 b &&& 0x7FFFFFE0 = s.cr0 &&& 0x7FFFFFE0 := putBit_and_of_clear _ _ 3 b rfl
  refine ⟨⟨id, id, ?_, id, id, ?_, List.prefix_refl _, Nat.le_refl _⟩, hpe⟩
  · rw [State.cr0Legal, State.cr0Legal, hpe, hpg, hrest]
    exact id
  · rw [State.levelLegal, State.levelLegal, hpe]
    exact id

/-- Showing the environment one event more. -/
theorem SameMode.event (e : IoEvent) : SameMode s (s.event e) :=
  ⟨⟨id, id, id, id, id, id, List.prefix_append _ _, Nat.le_refl _⟩, rfl⟩

/-- Drawing free values. -/
theorem SameMode.drawn (k : Nat) : SameMode s (s.drawn k) :=
  ⟨⟨id, id, id, id, id, id, List.prefix_refl _, Nat.le_add_right _ k⟩, rfl⟩

/-! ## The updates that the machine makes -/

theorem SameMode.storeByte (pa : Dword) (b : Byte) : SameMode s (s.storeByte pa b) := by
  rw [storeByte_eq]
  exact .setMem (storeByte_wf s pa b)

theorem SameMode.storeBytes (pas : List Dword) (bs : List Byte) : SameMode s (s.storeBytes pas bs) := by
  rw [storeBytes_eq]
  exact .setMem (storeBytes_wf s pas bs)

theorem SameMode.setFlags (f : Flags) : SameMode s (s.setFlags f) := .setEflags_fixed (into_fixed f s.eflags)

theorem SameMode.putFlag (i : Nat) (b : Bool) (hi : (0xFFFE802A : Dword).getLsbD i = false) :
    SameMode s (s.putFlag i b) := .setEflags_fixed (putBit_fixed s.eflags i b hi)

theorem SameMode.writeFlags (fl : Dword) (wide : Bool) (lvl : Option (BitVec 2)) :
    SameMode s { s with eflags := writeFlags s.eflags fl wide lvl } :=
  .setEflags fun h => writeFlags_legal _ _ _ _ (vm_of_legal h)

theorem SameMode.setTlbEntry (la : Dword) (way : Nat) (e : TlbEntry) : SameMode s (s.setTlbEntry la way e) :=
  .setTlb (setTlbEntry_length s la way e)

theorem SameMode.flushTlb : SameMode s s.flushTlb :=
  (SameMode.setTlb (flushTlb_length s)).trans (.of_watched rfl)

/-- The general registers are not watched. -/
theorem setGprLow_watched (s : State) {w : Nat} (r : Gpr) (v : BitVec w) :
    (s.setGprLow r v).watched = s.watched := rfl

/-- Nor is the stack pointer, one of them. -/
theorem setSp_watched (s : State) (v : Dword) : (s.setSp v).watched = s.watched := by
  unfold State.setSp
  split <;> rfl

theorem SameMode.setSp (v : Dword) : SameMode s (s.setSp v) := .of_watched (setSp_watched s v)

theorem SameMode.switchCr3 (v : Dword) : SameMode s (s.switchCr3 v) := by
  unfold State.switchCr3
  split
  · have hcr3 : SameMode s { s with cr3 := v } := .of_watched rfl
    exact hcr3.trans .flushTlb
  · exact .refl s

/-- Clearing the breakpoint enables of a task keeps breakpoints off (47_multitasking.md R875). -/
theorem SameMode.maskDr7 (m : Dword) : SameMode s { s with dr7 := s.dr7 &&& m } :=
  .setDr7 fun h => by
    rw [BitVec.and_assoc, BitVec.and_comm m, ← BitVec.and_assoc, h]
    exact BitVec.zero_and

/-! ## Rules for computations -/

/-- A computation of an instruction or event that began in `s` keeps `SameMode s` of the working state and of the state a
fault goes back to. A structure, so that no elaboration step runs the computation. -/
structure Steady (s : State) (m : M α) : Prop where
  keeps : Keeps (SameMode s) m

/-- A computation that changes nothing. -/
@[simp] theorem Steady.pure (a : α) : Steady s (pure a : M α) := ⟨.pure a⟩

/-- Reading the state. -/
@[simp] theorem Steady.look (f : State → α) : Steady s (look f) := ⟨.look f⟩

/-- Making changes permanent. -/
theorem Steady.commit : Steady s commit := ⟨.commit⟩

/-- Raising an exception. -/
theorem Steady.raise (v : Byte) (e : Option Word) : Steady s (raise v e : M α) := ⟨.raise v e⟩

/-- Raising an exception with an error code. -/
theorem Steady.raiseCode (v : Byte) (c : Word) : Steady s (raiseCode v c : M α) := ⟨.raiseCode v c⟩

/-- Refusing. -/
theorem Steady.refuse (r : Refusal) : Steady s (refuse r : M α) := ⟨.refuse r⟩

/-- Sequencing. -/
theorem Steady.bind {x : M α} {f : α → M β} (hx : Steady s x) (hf : ∀ a, Steady s (f a)) : Steady s (x >>= f) :=
  ⟨hx.keeps.bind fun a => (hf a).keeps⟩

/-- A choice between computations. -/
theorem Steady.ite {c : Prop} [Decidable c] {x y : M α} (hx : Steady s x) (hy : Steady s y) :
    Steady s (if c then x else y) := ⟨.ite hx.keeps hy.keeps⟩

/-- A computation on one side of a choice, and what follows either way. -/
theorem Steady.thenJoin {c : Prop} [Decidable c] {x : M Unit} {f : Unit → M β} (hx : Steady s x)
    (hf : ∀ r, Steady s (f r)) : Steady s (if c then x >>= f else f ()) := .ite (hx.bind hf) (hf ())

/-- A check. -/
theorem Steady.need {ok : Bool} {act : M Unit} (h : Steady s act) : Steady s (need ok act) := ⟨.need h.keeps⟩

/-- A check whose failure raises an exception with an error code. -/
theorem Steady.needCode (ok : Bool) (v : Byte) (c : Word) : Steady s (Machine.need ok (Machine.raiseCode v c)) :=
  .need (.raiseCode v c)

/-- What follows a check that refuses may rely on it. -/
theorem Steady.needOrRefuse {ok : Bool} {r : Refusal} {f : Unit → M β} (hf : ok = true → Steady s (f ())) :
    Steady s (Machine.need ok (Machine.refuse r) >>= f) := by
  cases ok with
  | true => exact ⟨(hf rfl).keeps⟩
  | false => exact ⟨fun _ hc hb => ⟨hc, hb⟩⟩

/-- The operand size in force. -/
theorem Steady.withOsz {f : (w : Nat) → M Unit} (h : ∀ w, Steady s (f w)) : Steady s (withOsz f) :=
  ⟨.withOsz fun w => (h w).keeps⟩

/-- A computation for each element of a list. -/
theorem Steady.mapM {f : α → M β} (h : ∀ a, Steady s (f a)) (l : List α) : Steady s (l.mapM f) :=
  ⟨.mapM (fun a => (h a).keeps) l⟩

/-- The same without results. -/
theorem Steady.forM {f : α → M PUnit} (h : ∀ a, Steady s (f a)) (l : List α) : Steady s (l.forM f) :=
  ⟨.forM (fun a => (h a).keeps) l⟩

/-- What is run in protected mode may rely on it, because nothing has changed the mode. -/
theorem Steady.byMode {x y : M β} (hx : s.pe = true → Steady s x) (hy : Steady s y) :
    Steady s (Machine.look (·.pe) >>= fun p => if p then x else y) := by
  refine ⟨fun t hc hb => ?_⟩
  rw [bind_run_ok (look_run _ t)]
  by_cases hp : t.cur.pe = true
  · rw [if_pos hp]
    exact (hx (hc.pe.symm.trans hp)).keeps t hc hb
  · rw [if_neg hp]
    exact hy.keeps t hc hb

/-- An update of the working state that obeys the relation. -/
theorem Steady.upd {f : State → State} (h : ∀ u, SameMode u (f u)) : Steady s (upd f) :=
  ⟨.upd fun u hu => hu.trans (h u)⟩

/-- An update of both states that obeys the relation. -/
theorem Steady.updBoth {f : State → State} (h : ∀ u, SameMode u (f u)) : Steady s (updBoth f) :=
  ⟨.updBoth fun u hu => hu.trans (h u)⟩

/-- An update that needs protected mode, in a computation that began in protected mode. -/
theorem Steady.updProtected {f : State → State} (hp : s.pe = true) (h : ∀ u, u.pe = true → SameMode u (f u)) :
    Steady s (Machine.upd f) :=
  ⟨.upd fun u hu => hu.trans (h u (hu.pe.trans hp))⟩

/-- An update of fields that nobody watches. -/
theorem Steady.unwatched {f : State → State} (h : ∀ u, (f u).watched = u.watched := by intro _; rfl) :
    Steady s (Machine.upd f) := .upd fun u => .of_watched (h u)

/-- The same of both states. -/
theorem Steady.bothUnwatched {f : State → State} (h : ∀ u, (f u).watched = u.watched := by intro _; rfl) :
    Steady s (Machine.updBoth f) := .updBoth fun u => .of_watched (h u)

/-- A free value. -/
theorem Steady.anyD : Steady s anyD := ⟨.anyD fun _ h => h.trans (.drawn 1)⟩

/-- A free value of some bits. -/
theorem Steady.anyBits (w : Nat) : Steady s (anyBits w) := ⟨.anyBits (fun _ h => h.trans (.drawn 1)) w⟩

/-- A free bit. -/
theorem Steady.anyBool : Steady s anyBool := Steady.anyD.bind fun _ => .pure _

end Sys2Proof.Machine
end

section
/-! PROOFS. Physical memory, translation, segments, the stack and the operands: each computation is `Steady`. The proofs
follow the text of the computations, one rule per step. -/

set_option Elab.async false

namespace Sys2Proof.Machine

variable {s : State}

/-! ## Physical memory and translation -/

theorem readByte_steady (pa : Dword) : Steady s (readByte pa) :=
  (Steady.look _).bind fun
    | .ram | .rom => .look _
    | .device | .absent => Steady.anyBits 8

theorem showDevice_steady (e : List Host.Cell → IoEvent) (pas : List Dword) (bs : List Byte) :
    Steady s (showDevice e pas bs) :=
  (Steady.look _).bind fun _ => .ite (.pure _) (Steady.updBoth fun _ => .event _)

theorem readPhys_steady (pas : List Dword) : Steady s (readPhys pas) :=
  (Steady.mapM readByte_steady pas).bind fun _ => (showDevice_steady _ _ _).bind fun _ => .pure _

theorem writePhys_steady (pas : List Dword) (bs : List Byte) : Steady s (writePhys pas bs) :=
  (showDevice_steady _ _ _).bind fun _ => Steady.upd fun _ => .storeBytes _ _

theorem setBitsAt_steady (pa : Dword) (bits : Byte) : Steady s (setBitsAt pa bits) :=
  Steady.updBoth fun _ => .storeByte _ _

theorem physReadD_steady (pa : Dword) : Steady s (physReadD pa) :=
  (readPhys_steady _).bind fun _ => .pure _

theorem updTlbEntry_steady (la : Dword) (way : Nat) (f : State → TlbEntry) :
    Steady s (updBoth fun u => u.setTlbEntry la way (f u)) := Steady.updBoth fun _ => .setTlbEntry _ _ _

theorem tlbLookup_steady (la : Dword) : Steady s (tlbLookup la) :=
  (Steady.look _).bind fun _ => .ite
    (Steady.anyD.bind fun _ => .ite (.pure _) (.pure _))
    ((Steady.look _).bind fun
      | [] => .pure _
      | way :: _ => Steady.anyBool.bind fun _ => .ite
          ((updTlbEntry_steady la way fun u => { u.tlbEntry la way with v := false }).bind fun _ => .pure _)
          ((Steady.look _).bind fun _ => .pure _))

theorem tlbFill_steady (la : Dword) (e : TlbEntry) : Steady s (tlbFill la e) :=
  (Steady.look _).bind fun
    | way :: _ => updTlbEntry_steady la way fun _ => e
    | [] => Steady.anyD.bind fun _ => updTlbEntry_steady la _ fun _ => e

theorem pageFault_steady {α : Type} (la : Dword) (present write user : Bool) :
    Steady s (pageFault la present write user : M α) :=
  (Steady.bothUnwatched).bind fun _ => .raise _ _

theorem markEntry_steady (pa entry : Dword) (bits : Byte) : Steady s (markEntry pa entry bits) :=
  (showDevice_steady _ _ _).bind fun _ => setBitsAt_steady _ _

theorem pageWalk_steady (la : Dword) (write user : Bool) : Steady s (pageWalk la write user) :=
  (Steady.look _).bind fun _ => (physReadD_steady _).bind fun _ => .ite (pageFault_steady _ _ _ _)
    ((physReadD_steady _).bind fun _ => .ite (pageFault_steady _ _ _ _) (.ite (pageFault_steady _ _ _ _)
      (.thenJoin (markEntry_steady _ _ _) fun _ => .thenJoin (markEntry_steady _ _ _) fun _ =>
        (tlbFill_steady _ _).bind fun _ => .pure _)))

theorem translate_steady (la : Dword) (write user : Bool) : Steady s (translate la write user) :=
  (Steady.look _).bind fun _ => .ite
    ((tlbLookup_steady la).bind fun
      | some _ => .ite (pageWalk_steady _ _ _) (.ite (pageFault_steady _ _ _ _) (.pure _))
      | none => pageWalk_steady _ _ _)
    (.pure _)

theorem linPlan_steady (la : Dword) (n : Nat) (write user : Bool) : Steady s (linPlan la n write user) :=
  (translate_steady _ _ _).bind fun _ => .ite (.pure _) ((translate_steady _ _ _).bind fun _ => .pure _)

theorem linRead_steady (la : Dword) (n : Nat) (user : Bool) : Steady s (linRead la n user) :=
  (linPlan_steady _ _ _ _).bind fun _ => readPhys_steady _

/-! ## Descriptors and segment loads -/

theorem readDesc_steady (pas : List Dword) : Steady s (readDesc pas) :=
  (readPhys_steady _).bind fun _ => (readPhys_steady _).bind fun _ => .pure _

theorem fetchDesc_steady (sel : Word) : Steady s (fetchDesc sel) :=
  (Steady.look _).bind fun
    | none => .pure _
    | some (_, _) => .ite (.pure _) ((linPlan_steady _ _ _ _).bind fun _ => (readDesc_steady _).bind fun _ => .pure _)

theorem fetchDescOr_steady (sel : Word) (v : Byte) (c : Word) :
    Steady s (fetchDescOr sel (raiseCode v c)) :=
  (fetchDesc_steady sel).bind fun
    | some _ => .pure _
    | none => .raiseCode v c

theorem linSetBits_steady (la : Dword) (bits : Byte) : Steady s (linSetBits la bits) :=
  (linPlan_steady _ _ _ _).bind fun pas => .forM (fun _ => (Steady.look _).bind fun _ => .ite
    ((readPhys_steady _).bind fun _ => writePhys_steady _ _) (setBitsAt_steady _ _)) pas

theorem setAccessed_steady (d : Desc) : Steady s (setAccessed d) := .ite (linSetBits_steady _ _) (.pure _)

theorem loadSegFrom_steady (r : Sreg) (sel : Word) (d : Desc) : Steady s (loadSegFrom r sel d) :=
  (setAccessed_steady d).bind fun _ => Steady.unwatched

theorem loadDataSeg_steady (r : Sreg) (sel : Word) : Steady s (loadDataSeg r sel) :=
  .ite Steady.unwatched <|
    (fetchDescOr_steady _ _ _).bind fun _ => (Steady.look _).bind fun _ => (Steady.needCode _ _ _).bind fun _ =>
    (Steady.needCode _ _ _).bind fun _ => (Steady.needCode _ _ _).bind fun _ => (Steady.needCode _ _ _).bind fun _ =>
    loadSegFrom_steady _ _ _

theorem loadSS_steady (sel : Word) : Steady s (loadSS sel) :=
  (Steady.needCode _ _ _).bind fun _ => (fetchDescOr_steady _ _ _).bind fun _ => (Steady.look _).bind fun _ =>
    (Steady.needCode _ _ _).bind fun _ => (Steady.needCode _ _ _).bind fun _ => (Steady.needCode _ _ _).bind fun _ =>
    (Steady.needCode _ _ _).bind fun _ => loadSegFrom_steady _ _ _

theorem loadSeg_steady (r : Sreg) (sel : Word) : Steady s (loadSeg r sel) :=
  (Steady.look _).bind fun _ => .ite
    (match r with
      | .ss => loadSS_steady sel
      | .es | .cs | .ds | .fs | .gs => loadDataSeg_steady _ sel)
    Steady.unwatched

/-! ## Accesses through a segment, and the stack -/

theorem raiseLimit_steady (r : Sreg) : Steady s (raiseLimit r : M Unit) := by
  cases r with
  | es | cs | ss | ds | fs | gs => exact .raiseCode _ _

theorem segCheck_steady (r : Sreg) (off : Dword) (n : Nat) (write : Bool) :
    Steady s (segCheck r off n write) :=
  (Steady.look _).bind fun _ => (Steady.look _).bind fun _ => (Steady.needCode _ _ _).bind fun _ =>
    (Steady.needCode _ _ _).bind fun _ => .need (raiseLimit_steady r)

theorem memPlan_steady (r : Sreg) (off : Dword) (n : Nat) (write : Bool) :
    Steady s (memPlan r off n write) :=
  (segCheck_steady _ _ _ _).bind fun _ => (Steady.look _).bind fun _ => (Steady.look _).bind fun _ =>
    linPlan_steady _ _ _ _

theorem memRead_steady (r : Sreg) (off : Dword) (n w : Nat) : Steady s (memRead r off n w) :=
  ((memPlan_steady _ _ _ _).bind fun _ => readPhys_steady _).bind fun _ => .pure _

theorem memWrite_steady (r : Sreg) (off : Dword) (n : Nat) {w : Nat} (v : BitVec w) :
    Steady s (memWrite r off n v) :=
  (memPlan_steady _ _ _ _).bind fun _ => writePhys_steady _ _

/-- Moving the stack pointer. -/
theorem updSp_steady (f : State → Dword) : Steady s (upd fun u => u.setSp (f u)) :=
  Steady.upd fun _ => .setSp _

theorem push_steady (n : Nat) {w : Nat} (v : BitVec w) : Steady s (push n v) :=
  (Steady.look _).bind fun _ => (Steady.look _).bind fun _ => (memWrite_steady _ _ _ _).bind fun _ =>
    updSp_steady fun _ => _

theorem pushAll_steady (n : Nat) (vs : List Dword) : Steady s (pushAll n vs) :=
  (Steady.look _).bind fun _ => (Steady.mapM (fun _ => memPlan_steady _ _ _ _) _).bind fun _ =>
    (Steady.forM (fun _ => writePhys_steady _ _) _).bind fun _ => updSp_steady _

theorem pop_steady (n w : Nat) : Steady s (pop n w) :=
  (Steady.look _).bind fun _ => (memRead_steady _ _ _ _).bind fun _ => (updSp_steady _).bind fun _ => .pure _

theorem readStack_steady (k n w : Nat) : Steady s (readStack k n w) :=
  (Steady.look _).bind fun _ => memRead_steady _ _ _ _

/-! ## Operands -/

theorem readMem_steady (m : Mem) (n w : Nat) : Steady s (readMem m n w) :=
  (Steady.look _).bind fun _ => (Steady.look _).bind fun _ => memRead_steady _ _ _ _

theorem writeMem_steady (m : Mem) (n : Nat) {w : Nat} (v : BitVec w) : Steady s (writeMem m n v) :=
  (Steady.look _).bind fun _ => (Steady.look _).bind fun _ => memWrite_steady _ _ _ _

theorem partPlan_steady (m : Mem) (k n : Nat) (write : Bool) : Steady s (partPlan m k n write) :=
  (Steady.look _).bind fun _ => (Steady.look _).bind fun _ => (Steady.need (raiseLimit_steady _)).bind fun _ =>
    memPlan_steady _ _ _ _

theorem readPart_steady (m : Mem) (k n w : Nat) : Steady s (readPart m k n w) :=
  (partPlan_steady _ _ _ _).bind fun _ => (readPhys_steady _).bind fun _ => .pure _

theorem placeRead_steady (w : Nat) (p : Place) : Steady s (p.read w) := by
  cases p with
  | gpr r => exact .look fun u => u.gprLow w r
  | byte r => exact .look fun u => (u.reg8 r).setWidth w
  | mem pas => exact (readPhys_steady pas).bind fun _ => .pure _

theorem placeWrite_steady {w : Nat} (v : BitVec w) (p : Place) : Steady s (p.write v) := by
  cases p with
  | gpr r => exact Steady.unwatched (f := fun u => u.setGprLow r v)
  | byte r => exact Steady.unwatched (f := fun u => u.setReg8 r (v.setWidth 8))
  | mem pas => exact writePhys_steady pas _

theorem memPlace_steady (r : Sreg) (off : Dword) (n : Nat) (write : Bool) :
    Steady s (memPlace r off n write) := (memPlan_steady _ _ _ _).bind fun _ => .pure _

theorem placeB_steady (e : RM Reg8) (write : Bool) : Steady s (placeB e write) := by
  cases e with
  | reg r => exact .pure _
  | mem m => exact (Steady.look _).bind fun _ => (Steady.look _).bind fun _ => memPlace_steady _ _ _ _

theorem placeV_steady (w : Nat) (e : RM Gpr) (write : Bool) : Steady s (placeV w e write) := by
  cases e with
  | reg r => exact .pure _
  | mem m => exact (Steady.look _).bind fun _ => (Steady.look _).bind fun _ => memPlace_steady _ _ _ _

@[simp] theorem readB_steady (e : RM Reg8) : Steady s (readB e) :=
  (placeB_steady e false).bind fun p => placeRead_steady 8 p

@[simp] theorem readV_steady (w : Nat) (e : RM Gpr) : Steady s (readV w e) :=
  (placeV_steady w e false).bind fun p => placeRead_steady w p

end Sys2Proof.Machine
end

section
/-! PROOFS. Control transfers, task switches, the delivery of events and the fetch of an instruction are `Steady`. The level
changes in protected mode only; the computations that change it ask for it by `hp`. -/

set_option Elab.async false

namespace Sys2Proof.Machine

variable {s : State}

/-! ## Inner stacks -/

theorem loadCS_steady (sel : Word) (d : Desc) (off : Dword) : Steady s (loadCS sel d off) :=
  (loadSegFrom_steady _ _ _).bind fun _ => Steady.unwatched

theorem tssStack_steady (n : BitVec 2) : Steady s (tssStack n) :=
  (Steady.look _).bind fun _ => (Steady.needCode _ _ _).bind fun _ => (linRead_steady _ _ _).bind fun _ =>
    (linRead_steady _ _ _).bind fun _ => .pure _

theorem innerStack_steady (lvl : BitVec 2) (count : Nat) : Steady s (innerStack lvl count) :=
  (tssStack_steady lvl).bind fun (_, _) => (Steady.needCode _ _ _).bind fun _ => (fetchDescOr_steady _ _ _).bind fun _ =>
    (Steady.needCode _ _ _).bind fun _ => (Steady.needCode _ _ _).bind fun _ => (Steady.needCode _ _ _).bind fun _ =>
    (Steady.needCode _ _ _).bind fun _ => (Steady.needCode _ _ _).bind fun _ => .pure _

/-- Changing the level in protected mode. -/
theorem updCpl_steady (hp : s.pe = true) (l : BitVec 2) : Steady s (upd fun u => { u with cpl := l }) :=
  Steady.updProtected hp fun _ => .setCpl l

theorem enterStack_steady (hp : s.pe = true) (lvl : BitVec 2) (k : InnerStack) :
    Steady s (enterStack lvl k) :=
  (updCpl_steady hp lvl).bind fun _ => (loadSegFrom_steady _ _ _).bind fun _ => updSp_steady fun _ => k.esp

theorem anySel_steady (sel : Word) : Steady s (anySel sel) := (Steady.anyBits 16).bind fun _ => .pure _

/-! ## The task switch -/

theorem changeAccess_steady (pas : List Dword) (f : Byte → Byte) : Steady s (changeAccess pas f) :=
  (readPhys_steady _).bind fun _ => writePhys_steady _ _

theorem checkTaskLdt_steady : Steady s checkTaskLdt :=
  (Steady.look _).bind fun _ => .ite (.pure _) <| (Steady.needCode _ _ _).bind fun _ =>
    (fetchDescOr_steady _ _ _).bind fun _ => (Steady.needCode _ _ _).bind fun _ => Steady.unwatched

theorem checkTaskCS_steady : Steady s checkTaskCS :=
  (Steady.look _).bind fun _ => (Steady.needCode _ _ _).bind fun _ => (fetchDescOr_steady _ _ _).bind fun _ =>
    (Steady.needCode _ _ _).bind fun _ => (Steady.needCode _ _ _).bind fun _ => (Steady.needCode _ _ _).bind fun _ =>
    (Steady.needCode _ _ _).bind fun _ => loadSegFrom_steady _ _ _

theorem checkTaskSS_steady : Steady s checkTaskSS :=
  (Steady.look _).bind fun _ => (Steady.look _).bind fun _ => (Steady.needCode _ _ _).bind fun _ =>
    (fetchDescOr_steady _ _ _).bind fun _ => (Steady.needCode _ _ _).bind fun _ => (Steady.needCode _ _ _).bind fun _ =>
    (Steady.needCode _ _ _).bind fun _ => (Steady.needCode _ _ _).bind fun _ => loadSegFrom_steady _ _ _

theorem checkTaskData_steady (r : Sreg) : Steady s (checkTaskData r) :=
  (Steady.look _).bind fun _ => (Steady.look _).bind fun _ => .ite (.pure _) <|
    (fetchDescOr_steady _ _ _).bind fun _ => (Steady.needCode _ _ _).bind fun _ => (Steady.needCode _ _ _).bind fun _ =>
    (Steady.needCode _ _ _).bind fun _ => loadSegFrom_steady _ _ _

theorem pushErr_steady (err : Option Word) : Steady s (pushErr err) := by
  cases err with
  | none => exact .pure _
  | some e => exact (anySel_steady e).bind fun _ => push_steady _ _

theorem startTask_steady (t : List Byte) (err : Option Word) : Steady s (startTask t err) :=
  checkTaskLdt_steady.bind fun _ => Steady.commit.bind fun _ =>
  checkTaskCS_steady.bind fun _ => Steady.commit.bind fun _ =>
  checkTaskSS_steady.bind fun _ => Steady.commit.bind fun _ =>
  (checkTaskData_steady _).bind fun _ => Steady.commit.bind fun _ =>
  (checkTaskData_steady _).bind fun _ => Steady.commit.bind fun _ =>
  (checkTaskData_steady _).bind fun _ => Steady.commit.bind fun _ =>
  (checkTaskData_steady _).bind fun _ => Steady.commit.bind fun _ =>
  (Steady.look _).bind fun _ => (Steady.needCode _ _ _).bind fun _ => (pushErr_steady err).bind fun _ =>
  .ite Steady.unwatched (.pure _)

theorem planIf_steady (made : Bool) (la : Dword) (n : Nat) : Steady s (planIf made la n) :=
  .ite (linPlan_steady _ _ _ _) (.pure _)

/-- TR and TS of the incoming task (47_multitasking.md R874). -/
theorem updTr_steady (r : SysSeg) :
    Steady s (upd fun u => { u with tr := r, cr0 := putBit u.cr0 3 true }) :=
  Steady.upd fun _ => (SameMode.setTs true).trans (.of_watched rfl)

theorem leaveTask_steady (nsel : Word) (d : Desc) (k : SwitchKind) (eip flags : Dword) :
    Steady s (leaveTask nsel d k eip flags) :=
  (Steady.needCode _ _ _).bind fun _ => (linRead_steady _ _ _).bind fun _ => (Steady.look _).bind fun _ =>
    (linPlan_steady _ _ _ _).bind fun _ => (planIf_steady _ _ _).bind fun _ => (Steady.look _).bind fun _ =>
    (planIf_steady _ _ _).bind fun _ => (planIf_steady _ _ _).bind fun _ => (Steady.needCode _ _ _).bind fun _ =>
    (Steady.look _).bind fun _ => (Steady.forM (fun _ => writePhys_steady _ _) _).bind fun _ =>
    (changeAccess_steady _ _).bind fun _ => (changeAccess_steady _ _).bind fun _ => (updTr_steady _).bind fun _ =>
    (writePhys_steady _ _).bind fun _ => .pure _

/-- The flags of a task whose image has VM = 0 are legal (47_multitasking.md R875, 10_state.md R63). -/
theorem taskFlags_legal (k : SwitchKind) (t : List Byte) (h : (taskFlags k t).getLsbD 17 = false) :
    taskFlags k t &&& 0xFFFE802A = 2 := by
  unfold taskFlags at h ⊢
  split
  · rename_i hk
    rw [if_pos hk, fixFlags_vm] at h
    exact fixFlags_legal _ h
  · rename_i hk
    rw [if_neg hk, getLsbD_putBit, if_neg (by decide), fixFlags_vm] at h
    exact (putBit_fixed _ 14 true rfl).trans (fixFlags_legal _ h)

/-- The incoming state of a task switch in protected mode, where the image has VM = 0. -/
theorem SameMode.loadTask (k : SwitchKind) (t : List Byte) (hp : s.pe = true)
    (hv : (taskFlags k t).getLsbD 17 = false) : SameMode s (s.loadTask k t) := by
  generalize hc : s.switchCr3 (tssD t 0x1C) = c
  have h1 : SameMode s c := hc ▸ .switchCr3 _
  have h2 : SameMode c { c with eflags := taskFlags k t } := .setEflags fun _ => taskFlags_legal k t hv
  have h3 : SameMode _ { c with eflags := taskFlags k t, cpl := rpl (tssW t 0x4C) } :=
    h2.trans (.setCpl _ (h1.pe.trans hp))
  have h4 : SameMode _ { c with eflags := taskFlags k t, cpl := rpl (tssW t 0x4C), dr7 := c.dr7 &&& 0xFFFFFFAA } :=
    h3.trans (.maskDr7 _)
  exact (h1.trans h4).trans (.of_watched (by subst hc; rfl))

theorem taskSwitch_steady (hp : s.pe = true) (nsel : Word) (d : Desc) (k : SwitchKind) (eip flags : Dword)
    (err : Option Word) : Steady s (taskSwitch nsel d k eip flags err) :=
  (leaveTask_steady _ _ _ _ _).bind fun t => Steady.commit.bind fun _ => Steady.needOrRefuse fun hv =>
    (Steady.updProtected hp fun _ hu => .loadTask k t hu (by simpa using hv)).bind fun _ => Steady.commit.bind fun _ =>
    startTask_steady t err

theorem gateTarget_steady (hp : s.pe = true) (tsel : Word) (k : SwitchKind) (eip flags : Dword) (err : Option Word) :
    Steady s (gateTarget tsel k eip flags err) :=
  (Steady.needCode _ _ _).bind fun _ => (Steady.needCode _ _ _).bind fun _ => (fetchDescOr_steady _ _ _).bind fun _ =>
    Steady.needOrRefuse fun _ => (Steady.needCode _ _ _).bind fun _ => (Steady.needCode _ _ _).bind fun _ =>
    (Steady.needCode _ _ _).bind fun _ => taskSwitch_steady hp _ _ _ _ _ _

/-! ## The delivery of an event -/

theorem idtGate_steady (v : Byte) : Steady s (idtGate v) :=
  (Steady.look _).bind fun _ => (Steady.needCode _ _ _).bind fun _ => (linRead_steady _ _ _).bind fun _ => .pure _

theorem handlerFrame_steady (flags : Dword) (cs : Word) (eip : Dword) (err : Option Word) :
    Steady s (handlerFrame flags cs eip err) :=
  (anySel_steady cs).bind fun _ => match err with
    | none => .pure _
    | some e => (anySel_steady e).bind fun _ => .pure _

theorem enterInner_steady (hp : s.pe = true) (g d : Desc) (flags eip : Dword) (err : Option Word) :
    Steady s (enterInner g d flags eip err) :=
  (innerStack_steady _ _).bind fun k => (Steady.needCode _ _ _).bind fun _ => (Steady.look _).bind fun _ =>
    (Steady.look _).bind fun _ => (Steady.look _).bind fun _ => (anySel_steady _).bind fun _ =>
    (handlerFrame_steady _ _ _ _).bind fun _ => (enterStack_steady hp _ k).bind fun _ =>
    (pushAll_steady _ _).bind fun _ => loadCS_steady _ _ _

theorem enterSame_steady (g d : Desc) (flags eip : Dword) (err : Option Word) :
    Steady s (enterSame g d flags eip err) :=
  (Steady.look _).bind fun _ => (Steady.needCode _ _ _).bind fun _ => (Steady.needCode _ _ _).bind fun _ =>
    (Steady.look _).bind fun _ => (handlerFrame_steady _ _ _ _).bind fun _ => (pushAll_steady _ _).bind fun _ =>
    (Steady.look _).bind fun _ => loadCS_steady _ _ _

/-- The flags of a handler (60_exceptions.md R947). -/
theorem updEntryFlags_steady (c : Bool) :
    Steady s (upd fun u => { u with eflags := entryFlags u.eflags c }) :=
  Steady.upd fun u => .setEflags_fixed (entryFlags_fixed u.eflags c)

theorem enterGate_steady (hp : s.pe = true) (g : Desc) (flags eip : Dword) (err : Option Word) :
    Steady s (enterGate g flags eip err) :=
  (Steady.needCode _ _ _).bind fun _ => (fetchDescOr_steady _ _ _).bind fun d => (Steady.look _).bind fun _ =>
    (Steady.needCode _ _ _).bind fun _ => (Steady.needCode _ _ _).bind fun _ => (Steady.needCode _ _ _).bind fun _ =>
    .ite ((enterInner_steady hp g d flags eip err).bind fun _ => updEntryFlags_steady _)
      ((enterSame_steady g d flags eip err).bind fun _ => updEntryFlags_steady _)

theorem deliverProt_steady (hp : s.pe = true) (v : Byte) (kind : EventKind) (err : Option Word) (eip : Dword) :
    Steady s (deliverProt v kind err eip) :=
  (idtGate_steady v).bind fun _ => (Steady.needCode _ _ _).bind fun _ => Steady.needOrRefuse fun _ =>
    (Steady.look _).bind fun _ => (Steady.needCode _ _ _).bind fun _ => (Steady.needCode _ _ _).bind fun _ =>
    (Steady.look _).bind fun _ => .ite (gateTarget_steady hp _ _ _ _ _) (enterGate_steady hp _ _ _ _)

/-- The handler of real-address mode starts with IF and TF clear (60_exceptions.md R960). -/
theorem updRealFlags_steady : Steady s (upd fun u => (u.putFlag 9 false).putFlag 8 false) :=
  Steady.upd fun _ => (SameMode.putFlag 9 false rfl).trans (.putFlag 8 false rfl)

theorem deliverReal_steady (v : Byte) (eip : Dword) : Steady s (deliverReal v eip) :=
  (Steady.look _).bind fun _ => (Steady.need (.raise _ _)).bind fun _ => (linRead_steady _ _ _).bind fun _ =>
    (linRead_steady _ _ _).bind fun _ => (Steady.look _).bind fun _ => (Steady.needCode _ _ _).bind fun _ =>
    (Steady.look _).bind fun _ => (Steady.look _).bind fun _ => (pushAll_steady _ _).bind fun _ =>
    updRealFlags_steady.bind fun _ => Steady.unwatched

theorem deliver_steady (v : Byte) (kind : EventKind) (err : Option Word) (eip : Dword) :
    Steady s (deliver v kind err eip) :=
  Steady.byMode (fun hp => deliverProt_steady hp _ _ _ _) (deliverReal_steady _ _)

theorem acknowledge_steady (e : Event) : Steady s (acknowledge e) := by
  unfold acknowledge
  split
  · exact Steady.unwatched
  · exact (Steady.bothUnwatched).bind fun _ => Steady.unwatched
  · exact Steady.unwatched
  · exact Steady.upd fun _ => (SameMode.event (.intAck e.vec)).trans (.of_watched rfl)

/-- The delivery of an event, whatever becomes of it, keeps the relation. -/
theorem takeEvent_sameMode {e : Event} {t : State} (h : takeEvent e s = .next t) : SameMode s t :=
  takeEvent_keeps (fun e => (acknowledge_steady e).keeps) (fun v k x o => (deliver_steady v k x o).keeps)
    (fun _ h => h.trans (.of_watched rfl))
    (fun _ h => h.trans (.of_watched rfl)) (.refl s) h

/-- So does the delivery of an exception. -/
theorem takeException_sameMode {x : Exc} {t : State} (h : takeException x s = .next t) : SameMode s t :=
  takeEvent_sameMode h

/-! ## The return from an exception -/

theorem needStack_steady (k n count : Nat) : Steady s (needStack k n count) :=
  (Steady.look _).bind fun _ => Steady.needCode _ _ _

theorem returnCS_steady (rsel : Word) : Steady s (returnCS rsel) :=
  (Steady.look _).bind fun _ => (Steady.needCode _ _ _).bind fun _ => (Steady.needCode _ _ _).bind fun _ =>
    (fetchDescOr_steady _ _ _).bind fun _ => (Steady.needCode _ _ _).bind fun _ => (Steady.needCode _ _ _).bind fun _ =>
    (Steady.needCode _ _ _).bind fun _ => (Steady.needCode _ _ _).bind fun _ => .pure _

theorem returnSS_steady (up n : Nat) (rsel : Word) : Steady s (returnSS up n rsel) :=
  (needStack_steady _ _ _).bind fun _ => (readStack_steady _ _ _).bind fun _ => (readStack_steady _ _ _).bind fun _ =>
    (Steady.needCode _ _ _).bind fun _ => (fetchDescOr_steady _ _ _).bind fun _ => (Steady.needCode _ _ _).bind fun _ =>
    (Steady.needCode _ _ _).bind fun _ => (Steady.needCode _ _ _).bind fun _ => (Steady.needCode _ _ _).bind fun _ =>
    .pure _

/-- Releasing bytes of the stack. -/
theorem updRelease_steady (n : Nat) : Steady s (upd (·.releaseStack n)) :=
  Steady.upd fun _ => .setSp _

theorem leaveInner_steady (hp : s.pe = true) (rsel : Word) (d : Desc) (off : Dword) (k : InnerStack) (n extra : Nat) :
    Steady s (leaveInner rsel d off k n extra) :=
  (updCpl_steady hp _).bind fun _ => (loadCS_steady _ _ _).bind fun _ => (loadSegFrom_steady _ _ _).bind fun _ =>
    .ite ((Steady.unwatched).bind fun _ => updRelease_steady _)
      ((Steady.anyBits 16).bind fun _ => (Steady.unwatched).bind fun _ => updRelease_steady _)

/-- The flags that a return loads. -/
theorem updWriteFlags_steady (fl : Dword) (wide : Bool) (lvl : Option (BitVec 2)) :
    Steady s (upd fun u => { u with eflags := writeFlags u.eflags fl wide lvl }) :=
  Steady.upd fun _ => .writeFlags fl wide lvl

theorem iretReal_steady : Steady s iretReal :=
  (Steady.look _).bind fun _ => (needStack_steady _ _ _).bind fun _ => (readStack_steady _ _ _).bind fun _ =>
    (readStack_steady _ _ _).bind fun _ => (readStack_steady _ _ _).bind fun _ => (Steady.look _).bind fun _ =>
    (Steady.needCode _ _ _).bind fun _ => (updRelease_steady _).bind fun _ => (Steady.unwatched).bind fun _ =>
    updWriteFlags_steady _ _ _

theorem iretProt_steady (hp : s.pe = true) : Steady s iretProt :=
  (Steady.look _).bind fun _ => (Steady.look _).bind fun _ => (needStack_steady _ _ _).bind fun _ =>
    (readStack_steady _ _ _).bind fun _ => (readStack_steady _ _ _).bind fun _ => (readStack_steady _ _ _).bind fun _ =>
    Steady.needOrRefuse fun _ => (returnCS_steady _).bind fun _ => .ite
      ((Steady.needCode _ _ _).bind fun _ => (updRelease_steady _).bind fun _ => (loadCS_steady _ _ _).bind fun _ =>
        updWriteFlags_steady _ _ _)
      ((returnSS_steady _ _ _).bind fun _ => (Steady.needCode _ _ _).bind fun _ =>
        (leaveInner_steady hp _ _ _ _ _ _).bind fun _ => (updWriteFlags_steady _ _ _).bind fun _ => Steady.unwatched)

theorem taskReturn_steady (hp : s.pe = true) : Steady s taskReturn :=
  (Steady.look _).bind fun _ => (linRead_steady _ _ _).bind fun _ => (Steady.needCode _ _ _).bind fun _ =>
    (fetchDescOr_steady _ _ _).bind fun _ => Steady.needOrRefuse fun _ => (Steady.needCode _ _ _).bind fun _ =>
    (Steady.needCode _ _ _).bind fun _ => (Steady.look _).bind fun _ => (Steady.look _).bind fun _ =>
    taskSwitch_steady hp _ _ _ _ _ _

theorem returnFromException_steady : Steady s returnFromException :=
  (Steady.unwatched).bind fun _ => Steady.byMode
    (fun hp => (Steady.look _).bind fun _ => .ite (taskReturn_steady hp) (iretProt_steady hp)) iretReal_steady

/-! ## Fetching -/

theorem readCode_steady (off : Dword) : Steady s (readCode off) :=
  (Steady.look _).bind fun _ => (Steady.look _).bind fun _ => (translate_steady _ _ _).bind fun _ =>
    (readPhys_steady _).bind fun _ => .pure _

theorem fetchByte_steady (k : Nat) : Steady s (fetchByte k) := by
  refine (Steady.look _).bind fun _ => (Steady.look _).bind fun _ => (Steady.needCode _ _ _).bind fun _ =>
    (Steady.look _).bind fun copies => ?_
  cases copies with
  | nil => exact readCode_steady _
  | cons c cs =>
    refine Steady.anyD.bind fun x => ?_
    split
    · exact .pure _
    · exact readCode_steady _

theorem fetchLoop_steady (fuel : Nat) (got : List Byte) : Steady s (fetchLoop fuel got) := by
  induction fuel generalizing got with
  | zero => exact .raiseCode _ _
  | succ fuel ih =>
    refine (Steady.look _).bind fun _ => ?_
    split
    · exact .pure _
    · exact .raise _ _
    · exact .ite (.raiseCode _ _) ((fetchByte_steady _).bind fun _ => ih _)

theorem fetchInstr_steady : Steady s fetchInstr := fetchLoop_steady 16 []

end Sys2Proof.Machine
end

section
/-! PROOFS. The bodies of the instructions are `Steady`, chapter by chapter. -/

set_option Elab.async false

namespace Sys2Proof.Machine

variable {s : State}

/-! ## Updates that several instructions share -/

/-- A write of unwatched fields and then of the status flags. -/
theorem updFlags_steady {f : State → State} {g : State → Flags}
    (h : ∀ u, (f u).watched = u.watched := by intro _; rfl) :
    Steady s (upd fun u => (f u).setFlags (g u)) :=
  Steady.upd fun u => (SameMode.of_watched (h u)).trans (.setFlags _)

/-- A write of one flag outside the fixed bits. -/
theorem updFlag_steady (i : Nat) (f : State → Bool) (hi : (0xFFFE802A : Dword).getLsbD i = false := by rfl) :
    Steady s (upd fun u => u.putFlag i (f u)) := Steady.upd fun _ => .putFlag _ _ hi

/-- Going on to the next instruction. -/
theorem advance_steady : Steady s (upd (·.advance)) := Steady.unwatched

theorem goTo_steady (off : Dword) : Steady s (upd (·.goTo off)) := Steady.unwatched

/-! ## Arithmetic and Boolean operations -/

@[simp] theorem addOp_steady (w : Nat) (a b : BitVec w) : Steady s (addOp w a b) := .pure _
@[simp] theorem adcOp_steady (w : Nat) (a b : BitVec w) : Steady s (adcOp w a b) :=
  (Steady.look _).bind fun _ => .pure _
@[simp] theorem subOp_steady (w : Nat) (a b : BitVec w) : Steady s (subOp w a b) := .pure _
@[simp] theorem sbbOp_steady (w : Nat) (a b : BitVec w) : Steady s (sbbOp w a b) :=
  (Steady.look _).bind fun _ => .pure _
@[simp] theorem andOp_steady (w : Nat) (a b : BitVec w) : Steady s (andOp w a b) :=
  Steady.anyD.bind fun _ => .pure _
@[simp] theorem orOp_steady (w : Nat) (a b : BitVec w) : Steady s (orOp w a b) :=
  Steady.anyD.bind fun _ => .pure _
@[simp] theorem xorOp_steady (w : Nat) (a b : BitVec w) : Steady s (xorOp w a b) :=
  Steady.anyD.bind fun _ => .pure _
@[simp] theorem incOp_steady (w : Nat) (a : BitVec w) : Steady s (incOp w a) :=
  (Steady.look _).bind fun _ => .pure _
@[simp] theorem decOp_steady (w : Nat) (a : BitVec w) : Steady s (decOp w a) :=
  (Steady.look _).bind fun _ => .pure _
@[simp] theorem negOp_steady (w : Nat) (a : BitVec w) : Steady s (negOp w a) := .pure _
@[simp] theorem notOp_steady (w : Nat) (a : BitVec w) : Steady s (notOp w a) :=
  (Steady.look _).bind fun _ => .pure _

section Shapes

variable {op : BinOp} {un : UnOp}

theorem binTo_steady (ho : ∀ w a b, Steady s (op w a b)) {w : Nat} {src : M (BitVec w)}
    (hs : Steady s src) (p : Place) : Steady s (binTo w op p src) :=
  (placeRead_steady w p).bind fun a => hs.bind fun b => (ho w a b).bind fun (r, _) =>
    (placeWrite_steady r p).bind fun _ => updFlags_steady

theorem binEb_steady (ho : ∀ w a b, Steady s (op w a b)) {e : RM Reg8} {src : M Byte}
    (hs : Steady s src) : Steady s (binEb op e src) :=
  (placeB_steady e true).bind fun p => binTo_steady ho hs p

theorem binEv_steady (ho : ∀ w a b, Steady s (op w a b)) {e : RM Gpr} {src : (w : Nat) → M (BitVec w)}
    (hs : ∀ w, Steady s (src w)) : Steady s (binEv op e src) :=
  .withOsz fun w => (placeV_steady w e true).bind fun p => binTo_steady ho (hs w) p

theorem cmpWith_steady (ho : ∀ w a b, Steady s (op w a b)) {w : Nat} {src : M (BitVec w)}
    (hs : Steady s src) (p : Place) : Steady s (cmpWith w op p src) :=
  (placeRead_steady w p).bind fun a => hs.bind fun b => (ho w a b).bind fun (_, _) => updFlags_steady

theorem cmpEb_steady (ho : ∀ w a b, Steady s (op w a b)) {e : RM Reg8} {src : M Byte}
    (hs : Steady s src) : Steady s (cmpEb op e src) :=
  (placeB_steady e false).bind fun p => cmpWith_steady ho hs p

theorem cmpEv_steady (ho : ∀ w a b, Steady s (op w a b)) {e : RM Gpr} {src : (w : Nat) → M (BitVec w)}
    (hs : ∀ w, Steady s (src w)) : Steady s (cmpEv op e src) :=
  .withOsz fun w => (placeV_steady w e false).bind fun p => cmpWith_steady ho (hs w) p

theorem unTo_steady (ho : ∀ w a, Steady s (un w a)) (w : Nat) (p : Place) :
    Steady s (unTo w un p) :=
  (placeRead_steady w p).bind fun a => (ho w a).bind fun (r, _) => (placeWrite_steady r p).bind fun _ => updFlags_steady

theorem unEb_steady (ho : ∀ w a, Steady s (un w a)) {e : RM Reg8} : Steady s (unEb un e) :=
  (placeB_steady e true).bind fun p => unTo_steady ho 8 p

theorem unEv_steady (ho : ∀ w a, Steady s (un w a)) {e : RM Gpr} : Steady s (unEv un e) :=
  .withOsz fun w => (placeV_steady w e true).bind fun p => unTo_steady ho w p

end Shapes

theorem mulByte_steady (mul : Byte → Byte → BitVec (8 + 8) × Bool) (e : RM Reg8) :
    Steady s (mulByte mul e) :=
  (readB_steady e).bind fun _ => (Steady.look _).bind fun _ => Steady.anyD.bind fun _ => updFlags_steady

theorem mulWord_steady (mul : (w : Nat) → BitVec w → BitVec w → BitVec (w + w) × Bool) (e : RM Gpr) :
    Steady s (mulWord mul e) :=
  .withOsz fun w => (readV_steady w e).bind fun _ => (Steady.look _).bind fun _ => Steady.anyD.bind fun _ => updFlags_steady

theorem imulTo_steady (w : Nat) (g : Gpr) (a b : BitVec w) : Steady s (imulTo w g a b) :=
  Steady.anyD.bind fun _ => updFlags_steady

theorem divByte_steady (div : BitVec (8 + 8) → Byte → Option (Byte × Byte)) (e : RM Reg8) :
    Steady s (divByte div e) := by
  refine (readB_steady e).bind fun _ => (Steady.look _).bind fun _ => ?_
  split
  · exact .raise _ _
  · exact Steady.anyD.bind fun _ => updFlags_steady

theorem divWord_steady (div : (w : Nat) → BitVec (w + w) → BitVec w → Option (BitVec w × BitVec w)) (e : RM Gpr) :
    Steady s (divWord div e) := by
  refine .withOsz fun w => (readV_steady w e).bind fun _ => (Steady.look _).bind fun _ => ?_
  split
  · exact .raise _ _
  · exact Steady.anyD.bind fun _ => updFlags_steady

theorem adjustAL_steady (f : Byte → Flags → Dword → Byte × Flags) : Steady s (adjustAL f) :=
  Steady.anyD.bind fun _ => updFlags_steady

theorem adjustAX_steady (f : Byte → Byte → Flags → Dword → Byte × Byte × Flags) : Steady s (adjustAX f) :=
  Steady.anyD.bind fun _ => updFlags_steady

theorem aamBody_steady (ib : Byte) : Steady s (aamBody ib) :=
  .ite (.raise _ _) (Steady.anyD.bind fun _ => updFlags_steady)

theorem aadBody_steady (ib : Byte) : Steady s (aadBody ib) := Steady.anyD.bind fun _ => updFlags_steady

theorem setByte_steady (cc : Cond) (e : RM Reg8) : Steady s (setByte cc e) :=
  (placeB_steady e true).bind fun p => (Steady.look _).bind fun _ => placeWrite_steady _ p

/-! ## Shifts and bits -/

theorem shiftTo_steady (w : Nat) (op : ShiftOp) (p : Place) {count : M Byte} (hc : Steady s count) :
    Steady s (shiftTo w op p count) :=
  (placeRead_steady w p).bind fun _ => hc.bind fun _ => .ite (.pure _) <|
    Steady.anyD.bind fun _ => (Steady.look _).bind fun _ => (placeWrite_steady _ p).bind fun _ => updFlags_steady

theorem shiftEb_steady {op : ShiftOp} {e : RM Reg8} {count : M Byte} (hc : Steady s count) :
    Steady s (shiftEb op e count) :=
  (placeB_steady e true).bind fun p => shiftTo_steady 8 op p hc

theorem shiftEv_steady {op : ShiftOp} {e : RM Gpr} {count : M Byte} (hc : Steady s count) :
    Steady s (shiftEv op e count) :=
  .withOsz fun w => (placeV_steady w e true).bind fun p => shiftTo_steady w op p hc

theorem doubleShift_steady (op : (w : Nat) → BitVec w → BitVec w → Nat → Dword → BitVec w → BitVec w × Flags)
    (e : RM Gpr) (g : Gpr) {count : M Byte} (hc : Steady s count) :
    Steady s (doubleShift op e g count) :=
  .withOsz fun w => (placeV_steady w e true).bind fun p => (placeRead_steady w p).bind fun _ =>
    (Steady.look _).bind fun _ => hc.bind fun _ => .ite (.pure _) <| Steady.anyD.bind fun _ =>
    (Steady.anyBits w).bind fun _ => (placeWrite_steady _ p).bind fun _ => updFlags_steady

theorem bitPlace_steady (w : Nat) (e : RM Gpr) (x : BitIndex) (write : Bool) :
    Steady s (bitPlace w e x write) := by
  cases e with
  | reg r => exact .pure _
  | mem m =>
    exact (Steady.look _).bind fun _ => (Steady.look _).bind fun _ => (Steady.look _).bind fun _ =>
      memPlace_steady _ _ _ _

theorem bitTest_steady (e : RM Gpr) (x : BitIndex) : Steady s (bitTest e x) :=
  .withOsz fun w => (Steady.look _).bind fun _ => (bitPlace_steady w e x false).bind fun p =>
    (placeRead_steady w p).bind fun _ => Steady.anyD.bind fun _ => updFlags_steady

theorem bitChange_steady (change : (w : Nat) → BitVec w → Nat → BitVec w) (e : RM Gpr) (x : BitIndex) :
    Steady s (bitChange change e x) :=
  .withOsz fun w => (Steady.look _).bind fun _ => (bitPlace_steady w e x true).bind fun p =>
    (placeRead_steady w p).bind fun _ => (placeWrite_steady _ p).bind fun _ => Steady.anyD.bind fun _ => updFlags_steady

theorem bitScan_steady (find : (w : Nat) → BitVec w → Option Nat) (g : Gpr) (e : RM Gpr) :
    Steady s (bitScan find g e) := by
  refine .withOsz fun w => (readV_steady w e).bind fun _ => Steady.anyD.bind fun _ => ?_
  split
  · exact (Steady.anyBits w).bind fun _ => updFlags_steady
  · exact updFlags_steady

/-! ## Data movement -/

theorem movEb_steady {e : RM Reg8} {src : M Byte} (hs : Steady s src) : Steady s (movEb e src) :=
  hs.bind fun v => (placeB_steady e true).bind fun p => placeWrite_steady v p

theorem movEv_steady {e : RM Gpr} {src : (w : Nat) → M (BitVec w)} (hs : ∀ w, Steady s (src w)) :
    Steady s (movEv e src) :=
  .withOsz fun w => (hs w).bind fun v => (placeV_steady w e true).bind fun p => placeWrite_steady v p

theorem loadMoffs8_steady (o : Dword) : Steady s (loadMoffs8 o) :=
  (Steady.look _).bind fun _ => (memRead_steady _ _ _ _).bind fun _ => Steady.unwatched

theorem loadMoffs_steady (o : Dword) : Steady s (loadMoffs o) :=
  .withOsz fun _ => (Steady.look _).bind fun _ => (memRead_steady _ _ _ _).bind fun _ => Steady.unwatched

theorem storeMoffs8_steady (o : Dword) : Steady s (storeMoffs8 o) :=
  (Steady.look _).bind fun _ => (Steady.look _).bind fun _ => memWrite_steady _ _ _ _

theorem storeMoffs_steady (o : Dword) : Steady s (storeMoffs o) :=
  .withOsz fun _ => (Steady.look _).bind fun _ => (Steady.look _).bind fun _ => memWrite_steady _ _ _ _

theorem storeWord_steady (e : RM Gpr) (v : Word) : Steady s (storeWord e v) := by
  cases e with
  | reg r =>
    exact (Steady.look _).bind fun _ => .ite ((anySel_steady v).bind fun _ => Steady.unwatched) Steady.unwatched
  | mem m => exact writeMem_steady m 2 v

/-- The shadow of a load of SS (60_exceptions.md R925). -/
theorem shadowSS_steady (c : Prop) [Decidable c] :
    Steady s (if c then upd fun u => { u with inhibitSS := true } else pure ()) :=
  .ite Steady.unwatched (.pure _)

theorem movSreg_steady (sr : Sreg) (e : RM Gpr) : Steady s (movSreg sr e) :=
  .ite (.raise _ _) <| (readV_steady 16 e).bind fun _ => (loadSeg_steady _ _).bind fun _ => shadowSS_steady _

theorem swap_steady (w : Nat) (p q : Place) : Steady s (swap w p q) :=
  (placeRead_steady w p).bind fun a => (placeRead_steady w q).bind fun b => (placeWrite_steady b p).bind fun _ =>
    placeWrite_steady a q

theorem pushSreg_steady (r : Sreg) : Steady s (pushSreg r) :=
  (Steady.look _).bind fun _ => (Steady.look _).bind fun _ =>
    .ite ((anySel_steady _).bind fun _ => push_steady _ _) (push_steady _ _)

theorem popEv_steady (e : RM Gpr) : Steady s (popEv e) :=
  .withOsz fun w => (pop_steady _ w).bind fun v => (placeV_steady w e true).bind fun p => placeWrite_steady v p

theorem popSreg_steady (r : Sreg) : Steady s (popSreg r) :=
  (Steady.look _).bind fun _ => (pop_steady _ _).bind fun _ => (loadSeg_steady _ _).bind fun _ => shadowSS_steady _

theorem pushaBody_steady : Steady s pushaBody :=
  (Steady.look _).bind fun _ => (Steady.look _).bind fun _ => pushAll_steady _ _

theorem popaBody_steady : Steady s popaBody :=
  .withOsz fun _ => (readStack_steady _ _ _).bind fun _ => (readStack_steady _ _ _).bind fun _ =>
    (readStack_steady _ _ _).bind fun _ => (readStack_steady _ _ _).bind fun _ => (readStack_steady _ _ _).bind fun _ =>
    (readStack_steady _ _ _).bind fun _ => (readStack_steady _ _ _).bind fun _ =>
    (Steady.unwatched fun _ => by simp only [setGprLow_watched]).bind fun _ => updRelease_steady _

theorem extendTo_steady {v : Nat} (w : Nat) (g : Gpr) (f : BitVec v → BitVec w) (x : BitVec v) :
    Steady s (extendTo w g f x) := Steady.unwatched

theorem cbwBody_steady : Steady s cbwBody :=
  (Steady.look _).bind fun _ => .ite Steady.unwatched Steady.unwatched

theorem cwdBody_steady : Steady s cwdBody := .withOsz fun _ => Steady.unwatched

theorem xlatBody_steady : Steady s xlatBody :=
  (Steady.look _).bind fun _ => (Steady.look _).bind fun _ => (memRead_steady _ _ _ _).bind fun _ => Steady.unwatched

theorem loadFar_steady (r : Sreg) (g : Gpr) (m : Mem) : Steady s (loadFar r g m) :=
  .withOsz fun _ => ((readMem_steady _ _ _).bind fun _ => (readPart_steady _ _ _ _).bind fun _ => .pure _).bind
    fun (_, _) => (loadSeg_steady _ _).bind fun _ => Steady.unwatched

/-! ## Control transfer -/

theorem needTarget_steady (t : Dword) : Steady s (needTarget t) :=
  (Steady.look _).bind fun _ => Steady.needCode _ _ _

theorem nearBranch_steady (t : Dword) : Steady s (nearBranch t) :=
  (Steady.look _).bind fun _ => (needTarget_steady _).bind fun _ => goTo_steady _

theorem jumpRel_steady (disp : State → Dword) : Steady s (jumpRel disp) :=
  (Steady.look _).bind fun _ => nearBranch_steady _

theorem jumpIf_steady (c : State → Bool) (disp : State → Dword) : Steady s (jumpIf c disp) :=
  (Steady.look _).bind fun _ => .ite (jumpRel_steady _) advance_steady

/-- The count is a general register, which nobody watches. -/
theorem decCount_watched (u : State) : u.decCount.watched = u.watched := by
  unfold State.decCount
  split <;> rfl

theorem loopWhile_steady (c : State → Bool) (disp : State → Dword) : Steady s (loopWhile c disp) :=
  (Steady.unwatched decCount_watched).bind fun _ => jumpIf_steady _ _

theorem nearCall_steady (t : Dword) : Steady s (nearCall t) :=
  (Steady.look _).bind fun _ => (needTarget_steady _).bind fun _ => (Steady.look _).bind fun _ =>
    (Steady.look _).bind fun _ => (push_steady _ _).bind fun _ => goTo_steady _

theorem nearReturn_steady (extra : Nat) : Steady s (nearReturn extra) :=
  (Steady.look _).bind fun _ => (pop_steady _ _).bind fun _ => (needTarget_steady _).bind fun _ =>
    (goTo_steady _).bind fun _ => updRelease_steady _

theorem returnAddress_steady : Steady s returnAddress :=
  (Steady.look _).bind fun _ => (anySel_steady _).bind fun _ => (Steady.look _).bind fun _ => .pure _

theorem pushReturn_steady (k : SwitchKind) (n : Nat) : Steady s (pushReturn k n) :=
  .ite (returnAddress_steady.bind fun _ => pushAll_steady _ _) (.pure _)

theorem farReal_steady (k : SwitchKind) (sel : Word) (off : Dword) : Steady s (farReal k sel off) :=
  (needTarget_steady _).bind fun _ => (Steady.look _).bind fun _ => (pushReturn_steady _ _).bind fun _ =>
    Steady.unwatched

/-- The end of a far transfer to a code segment, after the privilege checks (43_control_transfer.md R585). -/
theorem codeDirect_tail_steady (k : SwitchKind) (sel new : Word) (d : Desc) (off : Dword) :
    Steady s (do
      need d.p (raiseNP sel)
      need (decide (off.toNat ≤ d.limit32.toNat)) raiseGP0
      pushReturn k (← look (·.oszBytes))
      loadCS new d off) :=
  (Steady.needCode _ _ _).bind fun _ => (Steady.needCode _ _ _).bind fun _ => (Steady.look _).bind fun _ =>
    (pushReturn_steady _ _).bind fun _ => loadCS_steady _ _ _

theorem codeDirect_steady (k : SwitchKind) (sel : Word) (d : Desc) (off : Dword) :
    Steady s (codeDirect k sel d off) :=
  (Steady.look _).bind fun _ => .ite
    ((Steady.needCode _ _ _).bind fun _ => codeDirect_tail_steady _ _ _ _ _)
    ((Steady.needCode _ _ _).bind fun _ => (Steady.needCode _ _ _).bind fun _ => codeDirect_tail_steady _ _ _ _ _)

theorem gateChecks_steady (k : SwitchKind) (gsel : Word) (g : Desc) : Steady s (gateChecks k gsel g) :=
  (Steady.look _).bind fun _ => (Steady.needCode _ _ _).bind fun _ => (Steady.needCode _ _ _).bind fun _ =>
    (Steady.needCode _ _ _).bind fun _ => (fetchDescOr_steady _ _ _).bind fun _ => (Steady.look _).bind fun _ =>
    (Steady.needCode _ _ _).bind fun _ => .ite
      ((Steady.needCode _ _ _).bind fun _ => (Steady.needCode _ _ _).bind fun _ => .pure _)
      ((Steady.needCode _ _ _).bind fun _ => (Steady.needCode _ _ _).bind fun _ => .pure _)

theorem gateParams_steady (c : Nat) : Steady s (gateParams c) :=
  (Steady.mapM (fun _ => readStack_steady _ _ _) _).bind fun _ => .pure _

theorem callInner_steady (hp : s.pe = true) (g d : Desc) : Steady s (callInner g d) :=
  (innerStack_steady _ _).bind fun k => (Steady.needCode _ _ _).bind fun _ => (gateParams_steady _).bind fun _ =>
    (Steady.look _).bind fun _ => (Steady.look _).bind fun _ => (anySel_steady _).bind fun _ =>
    returnAddress_steady.bind fun _ => (enterStack_steady hp _ k).bind fun _ => (pushAll_steady _ _).bind fun _ =>
    loadCS_steady _ _ _

theorem throughGate_steady (hp : s.pe = true) (k : SwitchKind) (gsel : Word) (g : Desc) :
    Steady s (throughGate k gsel g) :=
  (gateChecks_steady _ _ _).bind fun _ => (Steady.look _).bind fun _ => .ite
    ((Steady.needCode _ _ _).bind fun _ => (pushReturn_steady _ _).bind fun _ => loadCS_steady _ _ _)
    (callInner_steady hp _ _)

theorem toTss_steady (hp : s.pe = true) (k : SwitchKind) (sel : Word) (d : Desc) :
    Steady s (toTss k sel d) :=
  (Steady.needCode _ _ _).bind fun _ => (Steady.look _).bind fun _ => (Steady.needCode _ _ _).bind fun _ =>
    (Steady.needCode _ _ _).bind fun _ => (Steady.needCode _ _ _).bind fun _ => (Steady.look _).bind fun _ =>
    (Steady.look _).bind fun _ => taskSwitch_steady hp _ _ _ _ _ _

theorem toTaskGate_steady (hp : s.pe = true) (k : SwitchKind) (gsel : Word) (g : Desc) :
    Steady s (toTaskGate k gsel g) :=
  (Steady.look _).bind fun _ => (Steady.needCode _ _ _).bind fun _ => (Steady.needCode _ _ _).bind fun _ =>
    (Steady.look _).bind fun _ => (Steady.look _).bind fun _ => gateTarget_steady hp _ _ _ _ _

theorem farProt_steady (hp : s.pe = true) (k : SwitchKind) (sel : Word) (off : Dword) :
    Steady s (farProt k sel off) := by
  refine (Steady.needCode _ _ _).bind fun _ => (fetchDescOr_steady _ _ _).bind fun d =>
    .ite (codeDirect_steady _ _ _ _) (.ite (.raiseCode _ _) ?_)
  split
  · exact throughGate_steady hp k sel d
  · exact toTaskGate_steady hp k sel d
  · exact toTss_steady hp k sel d
  · exact toTss_steady hp k sel d
  · exact .refuse _
  · exact .refuse _
  · exact .refuse _
  · exact .raiseCode _ _

theorem farTransfer_steady (k : SwitchKind) (sel : Word) (off : Dword) : Steady s (farTransfer k sel off) :=
  Steady.byMode (fun hp => farProt_steady hp _ _ _) (farReal_steady _ _ _)

theorem farIndirect_steady (k : SwitchKind) (m : Mem) : Steady s (farIndirect k m) :=
  .withOsz fun _ => (readMem_steady _ _ _).bind fun _ => farTransfer_steady _ _ _

theorem farReturnReal_steady (extra : Nat) : Steady s (farReturnReal extra) :=
  (Steady.look _).bind fun _ => (needStack_steady _ _ _).bind fun _ => (needStack_steady _ _ _).bind fun _ =>
    (readStack_steady _ _ _).bind fun _ => (readStack_steady _ _ _).bind fun _ => (needTarget_steady _).bind fun _ =>
    (updRelease_steady _).bind fun _ => Steady.unwatched

theorem farReturnProt_steady (hp : s.pe = true) (extra : Nat) : Steady s (farReturnProt extra) :=
  (Steady.look _).bind fun _ => (Steady.look _).bind fun _ => (needStack_steady _ _ _).bind fun _ =>
    (readStack_steady _ _ _).bind fun _ => (readStack_steady _ _ _).bind fun _ => (returnCS_steady _).bind fun _ => .ite
      ((Steady.needCode _ _ _).bind fun _ => (updRelease_steady _).bind fun _ => loadCS_steady _ _ _)
      ((returnSS_steady _ _ _).bind fun _ => (Steady.needCode _ _ _).bind fun _ =>
        (leaveInner_steady hp _ _ _ _ _ _).bind fun _ => Steady.unwatched)

theorem farReturn_steady (extra : Nat) : Steady s (farReturn extra) :=
  Steady.byMode (fun hp => farReturnProt_steady hp _) (farReturnReal_steady _)

theorem softwareInt_steady (v : Byte) : Steady s (softwareInt v) :=
  (Steady.look _).bind fun _ => deliver_steady _ _ _ _

theorem intoBody_steady : Steady s intoBody :=
  (Steady.look _).bind fun _ => .ite (softwareInt_steady 4) advance_steady

theorem boundBody_steady (g : Gpr) (m : Mem) : Steady s (boundBody g m) :=
  .withOsz fun _ => (readMem_steady _ _ _).bind fun _ => (readPart_steady _ _ _ _).bind fun _ =>
    (Steady.look _).bind fun _ => .need (.raise _ _)

theorem copyDisplay_steady (narrow : Bool) (ebp : Dword) (n i count : Nat) :
    Steady s (copyDisplay narrow ebp n i count) := by
  induction count generalizing i with
  | zero => exact .pure _
  | succ count ih =>
    exact (memRead_steady _ _ _ _).bind fun _ => (push_steady _ _).bind fun _ => ih _

/-- The end of ENTER: the frame pointer, then the room for local data (43_control_transfer.md R616). -/
theorem enterFrame_steady (wide : Bool) (frame : Dword) (iw : Word) :
    Steady s (do
      if wide then upd (·.setGpr .ebp frame) else upd (·.setGprLow .ebp (frame.setWidth 16 : Word))
      upd fun u => u.setSp (u.gpr .esp - iw.setWidth 32)) :=
  .ite ((Steady.unwatched).bind fun _ => updSp_steady _) ((Steady.unwatched).bind fun _ => updSp_steady _)

theorem enterBody_steady (iw : Word) (ib : Byte) : Steady s (enterBody iw ib) :=
  (Steady.look _).bind fun _ => (Steady.look _).bind fun _ => (Steady.look _).bind fun _ => (Steady.look _).bind fun _ =>
    (push_steady _ _).bind fun _ => (Steady.look _).bind fun _ => .ite
      ((copyDisplay_steady _ _ _ _ _).bind fun _ => (push_steady _ _).bind fun _ => enterFrame_steady _ _ _)
      (enterFrame_steady _ _ _)

theorem leaveBody_steady : Steady s leaveBody :=
  .withOsz fun _ => (Steady.look _).bind fun _ => (memRead_steady _ _ _ _).bind fun _ =>
    (updSp_steady fun _ => _).bind fun _ => Steady.unwatched

/-! ## Flags and processor control -/

theorem needIopl_steady : Steady s needIopl := (Steady.look _).bind fun _ => Steady.needCode _ _ _

theorem cliBody_steady : Steady s cliBody := needIopl_steady.bind fun _ => updFlag_steady 9 _

theorem stiBody_steady : Steady s stiBody :=
  needIopl_steady.bind fun _ => Steady.upd fun _ => (SameMode.putFlag 9 true rfl).trans (.of_watched rfl)

theorem sahfBody_steady : Steady s sahfBody := Steady.upd fun _ => .setFlags _

theorem pushfBody_steady : Steady s pushfBody :=
  (Steady.look _).bind fun _ => (Steady.look _).bind fun _ => push_steady _ _

theorem popfBody_steady : Steady s popfBody :=
  (Steady.look _).bind fun _ => (pop_steady _ _).bind fun fl => Steady.upd fun u =>
    (SameMode.writeFlags fl false (if u.pe then some u.cpl else none)).trans (.of_watched rfl)

theorem needPrivilege_steady : Steady s needPrivilege := (Steady.look _).bind fun _ => Steady.needCode _ _ _

theorem hltBody_steady : Steady s hltBody := needPrivilege_steady.bind fun _ => Steady.unwatched

theorem escBody_steady (op : BitVec 3) (e : RM Gpr) : Steady s (escBody op e) :=
  (Steady.look _).bind fun _ => (Steady.need (.raise _ _)).bind fun _ => .ite (.pure _) (.refuse _)

theorem waitBody_steady : Steady s waitBody :=
  (Steady.look _).bind fun _ => (Steady.need (.raise _ _)).bind fun _ => .ite (.pure _) (.refuse _)

end Sys2Proof.Machine
end

section
/-! PROOFS. The bodies of the system and string instructions. -/

set_option Elab.async false

namespace Sys2Proof.Machine

variable {s : State}

/-! ## System instructions -/

theorem needProtected_steady : Steady s needProtected := (Steady.look _).bind fun _ => .need (.raise _ _)

theorem loadTable_steady (m : Mem) : Steady s (loadTable m) :=
  needPrivilege_steady.bind fun _ => (readMem_steady _ _ _).bind fun _ => (readPart_steady _ _ _ _).bind fun _ =>
    (Steady.look _).bind fun _ => .pure _

theorem storeTable_steady (m : Mem) (r : TableReg) : Steady s (storeTable m r) :=
  (partPlan_steady _ _ _ _).bind fun _ => (partPlan_steady _ _ _ _).bind fun _ => (Steady.look _).bind fun _ => .ite
    ((Steady.pure _).bind fun _ => (writePhys_steady _ _).bind fun _ => writePhys_steady _ _)
    ((Steady.anyBits 8).bind fun _ => (Steady.pure _).bind fun _ => (writePhys_steady _ _).bind fun _ =>
      writePhys_steady _ _)

theorem lldtBody_steady (e : RM Gpr) : Steady s (lldtBody e) :=
  needProtected_steady.bind fun _ => needPrivilege_steady.bind fun _ => (readV_steady 16 e).bind fun _ =>
    .ite Steady.unwatched <| (Steady.needCode _ _ _).bind fun _ => (fetchDescOr_steady _ _ _).bind fun _ =>
    (Steady.needCode _ _ _).bind fun _ => (Steady.needCode _ _ _).bind fun _ => Steady.unwatched

theorem readCr0_steady : Steady s readCr0 := Steady.anyD.bind fun _ => .look _

theorem readMsw_steady : Steady s readMsw := readCr0_steady.bind fun _ => .pure _

theorem cltsBody_steady : Steady s cltsBody :=
  needPrivilege_steady.bind fun _ => Steady.upd fun _ => .setTs false

theorem anyFlags_steady : Steady s anyFlags := Steady.anyD.bind fun _ => Steady.upd fun _ => .setFlags _

theorem readCr_steady (n : BitVec 3) : Steady s (readCr n) := by
  unfold readCr
  split
  · exact needPrivilege_steady.bind fun _ => readCr0_steady
  · exact needPrivilege_steady.bind fun _ => .look _
  · exact needPrivilege_steady.bind fun _ => Steady.anyD.bind fun _ => .look _
  · exact .raise _ _

theorem readDr_steady (n : BitVec 3) : Steady s (readDr n) := by
  unfold readDr
  split
  case h_7 => exact .raise _ _
  all_goals exact needPrivilege_steady.bind fun _ => .look _

/-- A value of DR7 that the model accepts enables no breakpoint (10_state.md R98). -/
theorem noBreakpoint_of_accepted (v : Dword) (h : (!(v.extractLsb' 0 8 != 0 || v.getLsbD 13)) = true) :
    v &&& 0x20FF = 0 := by
  simp only [Bool.not_eq_true', Bool.or_eq_false_iff, bne_eq_false_iff_eq] at h
  obtain ⟨hlow, h13⟩ := h
  apply BitVec.eq_of_getLsbD_eq
  intro j hj
  rw [BitVec.getLsbD_and]
  by_cases hj8 : j < 8
  · have hv : v.getLsbD j = false := by simpa [hj8] using congrArg (·.getLsbD j) hlow
    rw [hv, Bool.false_and]
    exact (BitVec.getLsbD_zero ..).symm
  · by_cases hj13 : j = 13
    · rw [hj13, h13]
      rfl
    · have hm : (0x20FF : Dword).getLsbD j = false := by
        revert hj8 hj13
        revert j
        decide
      rw [hm, Bool.and_false]
      exact (BitVec.getLsbD_zero ..).symm

theorem writeDr_steady (n : BitVec 3) (v : Dword) : Steady s (writeDr n v) := by
  unfold writeDr
  split
  case h_6 =>
    exact needPrivilege_steady.bind fun _ => Steady.needOrRefuse fun h =>
      Steady.upd fun _ => .setDr7 fun _ => noBreakpoint_of_accepted v h
  case h_7 => exact .raise _ _
  all_goals exact needPrivilege_steady.bind fun _ => Steady.unwatched

theorem anyEntry_steady : Steady s anyEntry :=
  Steady.anyD.bind fun _ => Steady.anyD.bind fun _ => .pure _

theorem anySet_steady (la : Dword) : Steady s (anySet la) :=
  .forM (fun _ => anyEntry_steady.bind fun e => updTlbEntry_steady la _ fun _ => e) _

theorem tlbWriteCommand_steady (tr6 : Dword) : Steady s (tlbWriteCommand tr6) :=
  (Steady.look _).bind fun tr7 => .ite (anySet_steady tr6) <| Steady.anyD.bind fun x => (Steady.look _).bind fun _ =>
    .thenJoin Steady.bothUnwatched fun _ => updTlbEntry_steady tr6 _ fun _ => testEntry tr6 tr7 x

theorem matchingWays_steady (tr6 : Dword) (ways : List Nat) : Steady s (matchingWays tr6 ways) := by
  induction ways with
  | nil => exact .pure _
  | cons way ways ih =>
    exact Steady.anyD.bind fun _ => ih.bind fun _ => (Steady.look _).bind fun _ => .ite (.pure _) (.pure _)

theorem anyAttributes_steady (tr6 : Dword) : Steady s (anyAttributes tr6) :=
  Steady.anyD.bind fun _ => Steady.unwatched

theorem tlbLookupCommand_steady (tr6 : Dword) : Steady s (tlbLookupCommand tr6) :=
  Steady.anyD.bind fun _ => (Steady.look _).bind fun _ => .ite
    ((Steady.unwatched).bind fun _ => anyAttributes_steady tr6)
    (.ite Steady.unwatched ((matchingWays_steady _ _).bind fun
      | [] => Steady.unwatched
      | [_] => Steady.unwatched
      | _ :: _ :: _ => (Steady.unwatched).bind fun _ => anyAttributes_steady tr6))

theorem readTr_steady (n : BitVec 3) : Steady s (readTr n) := by
  unfold readTr
  split
  case h_3 => exact .raise _ _
  all_goals exact needPrivilege_steady.bind fun _ => Steady.anyD.bind fun _ => .look _

theorem writeTr_steady (n : BitVec 3) (v : Dword) : Steady s (writeTr n v) := by
  unfold writeTr
  split
  · exact needPrivilege_steady.bind fun _ => (Steady.unwatched).bind fun _ =>
      .ite (tlbLookupCommand_steady v) (tlbWriteCommand_steady v)
  · exact needPrivilege_steady.bind fun _ => Steady.unwatched
  · exact .raise _ _

theorem probe_steady (sel : Word) : Steady s (probe sel) := .ite (.pure _) (fetchDesc_steady sel)

theorem setZf_steady (b : Bool) : Steady s (setZf b) := updFlag_steady 6 fun _ => b

theorem arplBody_steady (e : RM Gpr) (g : Gpr) : Steady s (arplBody e g) :=
  needProtected_steady.bind fun _ => (placeV_steady 16 e true).bind fun p => (placeRead_steady 16 p).bind fun _ =>
    (Steady.look _).bind fun _ => .ite ((placeWrite_steady _ p).bind fun _ => setZf_steady true) (setZf_steady false)

theorem larBody_steady (g : Gpr) (e : RM Gpr) : Steady s (larBody g e) :=
  needProtected_steady.bind fun _ => (readV_steady 16 e).bind fun _ => (probe_steady _).bind fun
    | none => setZf_steady false
    | some _ => (Steady.look _).bind fun _ => .ite
        ((Steady.look _).bind fun _ => .ite
          (Steady.anyD.bind fun _ => (Steady.unwatched).bind fun _ => setZf_steady true)
          ((Steady.unwatched).bind fun _ => setZf_steady true))
        (setZf_steady false)

theorem lslBody_steady (g : Gpr) (e : RM Gpr) : Steady s (lslBody g e) :=
  needProtected_steady.bind fun _ => (readV_steady 16 e).bind fun _ => (probe_steady _).bind fun
    | none => setZf_steady false
    | some _ => (Steady.look _).bind fun _ => .ite
        ((Steady.withOsz fun _ => Steady.unwatched).bind fun _ => setZf_steady true)
        (setZf_steady false)

theorem verifyBody_steady (ok : State → Desc → Word → Bool) (e : RM Gpr) : Steady s (verifyBody ok e) :=
  needProtected_steady.bind fun _ => (readV_steady 16 e).bind fun _ => (probe_steady _).bind fun
    | none => setZf_steady false
    | some _ => (Steady.look _).bind fun _ => setZf_steady _

theorem ltrBody_steady (e : RM Gpr) : Steady s (ltrBody e) :=
  needProtected_steady.bind fun _ => needPrivilege_steady.bind fun _ => (readV_steady 16 e).bind fun _ =>
    (Steady.needCode _ _ _).bind fun _ => (Steady.needCode _ _ _).bind fun _ => (fetchDescOr_steady _ _ _).bind fun _ =>
    Steady.needOrRefuse fun _ => (Steady.needCode _ _ _).bind fun _ => (Steady.needCode _ _ _).bind fun _ =>
    (linPlan_steady _ _ _ _).bind fun _ => (changeAccess_steady _ _).bind fun _ => Steady.unwatched

/-! ## I/O and strings -/

theorem portAllowed_steady (tr : SysSeg) (base p : Nat) : Steady s (portAllowed tr base p) :=
  .ite (.pure _) ((linRead_steady _ _ _).bind fun _ => .pure _)

theorem portsAllowed_steady (tr : SysSeg) (base : Nat) (ps : List Nat) :
    Steady s (portsAllowed tr base ps) := by
  induction ps with
  | nil => exact .pure _
  | cons p ps ih => exact (portAllowed_steady _ _ _).bind fun _ => .ite ih (.pure _)

theorem bitmapAllows_steady (port : Word) (n : Nat) : Steady s (bitmapAllows port n) :=
  (Steady.look _).bind fun _ => .ite (.pure _) ((linRead_steady _ _ _).bind fun _ =>
    .ite (.pure _) (portsAllowed_steady _ _ _))

theorem ioPermission_steady (port : Word) (n : Nat) : Steady s (ioPermission port n) :=
  (Steady.look _).bind fun _ => .ite ((bitmapAllows_steady _ _).bind fun _ => Steady.needCode _ _ _) (.pure _)

theorem ioRead_steady (port : Word) (w : Nat) : Steady s (ioRead port w) :=
  (Steady.anyBits w).bind fun _ => (Steady.updBoth fun _ => .event _).bind fun _ => .pure _

theorem ioWrite_steady {w : Nat} (port : Word) (v : BitVec w) : Steady s (ioWrite port v) :=
  Steady.updBoth fun _ => .event _

theorem inBody_steady {width : M Nat} {port : M Word} (hw : Steady s width) (hp : Steady s port) :
    Steady s (inBody width port) :=
  hw.bind fun _ => hp.bind fun _ => (ioPermission_steady _ _).bind fun _ => (ioRead_steady _ _).bind fun _ =>
    Steady.unwatched

theorem outBody_steady {width : M Nat} {port : M Word} (hw : Steady s width) (hp : Steady s port) :
    Steady s (outBody width port) :=
  hw.bind fun _ => hp.bind fun _ => (ioPermission_steady _ _).bind fun _ => (Steady.look _).bind fun _ =>
    ioWrite_steady _ _

/-- The index registers are general registers, which nobody watches. -/
theorem stepIndex_watched (u : State) (r : Gpr) (w : Nat) : (u.stepIndex r w).watched = u.watched := by
  unfold State.stepIndex
  exact (apply_ite State.watched _ _ _).trans (ite_self _)

theorem SameMode.stepIndex (r : Gpr) (w : Nat) : SameMode s (s.stepIndex r w) := .of_watched (stepIndex_watched s r w)

theorem readSource_steady (w : Nat) : Steady s (readSource w) :=
  (Steady.look _).bind fun _ => (Steady.look _).bind fun _ => memRead_steady _ _ _ _

theorem readDest_steady (w : Nat) : Steady s (readDest w) :=
  (Steady.look _).bind fun _ => memRead_steady _ _ _ _

theorem moveElement_steady (w : Nat) : Steady s (moveElement w) :=
  (readSource_steady w).bind fun _ => (Steady.look _).bind fun _ => (memWrite_steady _ _ _ _).bind fun _ =>
    Steady.upd fun _ => (SameMode.stepIndex .esi w).trans (.stepIndex .edi w)

theorem compareElement_steady (w : Nat) : Steady s (compareElement w) :=
  (readSource_steady w).bind fun _ => (readDest_steady w).bind fun _ => Steady.upd fun _ =>
    ((SameMode.setFlags _).trans (.stepIndex .esi w)).trans (.stepIndex .edi w)

theorem scanElement_steady (w : Nat) : Steady s (scanElement w) :=
  (readDest_steady w).bind fun _ => Steady.upd fun _ => (SameMode.setFlags _).trans (.stepIndex .edi w)

theorem loadElement_steady (w : Nat) : Steady s (loadElement w) :=
  (readSource_steady w).bind fun v => Steady.upd fun u =>
    have hv : SameMode u (u.setGprLow .eax v) := .of_watched rfl
    hv.trans (.stepIndex .esi w)

theorem storeElement_steady (w : Nat) : Steady s (storeElement w) :=
  (Steady.look _).bind fun _ => (Steady.look _).bind fun _ => (memWrite_steady _ _ _ _).bind fun _ =>
    Steady.upd fun _ => .stepIndex .edi w

theorem inElement_steady (w : Nat) : Steady s (inElement w) :=
  (Steady.look _).bind fun _ => (ioPermission_steady _ _).bind fun _ => (Steady.look _).bind fun _ =>
    (memPlan_steady _ _ _ _).bind fun _ => (ioRead_steady _ _).bind fun _ => (writePhys_steady _ _).bind fun _ =>
    Steady.upd fun _ => .stepIndex .edi w

theorem outElement_steady (w : Nat) : Steady s (outElement w) :=
  (Steady.look _).bind fun _ => (ioPermission_steady _ _).bind fun _ => (readSource_steady w).bind fun _ =>
    (ioWrite_steady _ _).bind fun _ => Steady.upd fun _ => .stepIndex .esi w

theorem repeated_steady {stop : RepKind → State → Bool} {width : M Nat} {element : Nat → M Unit}
    (hw : Steady s width) (he : ∀ w, Steady s (element w)) :
    Steady s (repeated stop width element) :=
  hw.bind fun w => (Steady.look _).bind fun
    | none => (he w).bind fun _ => advance_steady
    | some _ => (Steady.look _).bind fun _ => .ite advance_steady <| (he w).bind fun _ =>
        (Steady.unwatched decCount_watched).bind fun _ => (Steady.look _).bind fun _ => .ite advance_steady (.pure _)

end Sys2Proof.Machine
end

section
/-! PROOFS. Every instruction, and so every step, leads to a lawful next state: the obligations of tier 3 about what every step
keeps (O8, O9). -/

set_option Elab.async false

namespace Sys2Proof.Machine

variable {s t : State}

/-! ## How an instruction ends -/

/-- RF, the single-step trap and the decode context are what the end of an instruction changes (10_state.md R62). -/
theorem SameMode.complete (s t : State) : SameMode t (complete s t) := by
  have hrf : SameMode t (t.putFlag 16 false) := .putFlag 16 false rfl
  unfold Machine.complete
  cases t.ctx.keepRF <;> cases s.tf
  · exact hrf.trans (.of_watched rfl)
  · exact hrf.trans (.of_watched rfl)
  · exact .of_watched rfl
  · exact .of_watched rfl

/-- An instruction whose meaning keeps the relation. -/
theorem instr_sameMode {lockable : Bool} {body : M Unit} (hb : Steady s body) (h : instr lockable body s = .next t) :
    SameMode s t :=
  instr_keeps hb.keeps (fun _ _ _ ht => ht.trans (.complete _ _)) (fun _ _ _ hs hx => hs.trans (takeException_sameMode hx))
    (.refl s) h

/-- So its next state is lawful. -/
theorem instr_lawful {lockable : Bool} {body : M Unit} (hb : Steady s body) (h : instr lockable body s = .next t) :
    Lawful s t := (instr_sameMode hb h).toLawful

/-- The same where it goes on to the next instruction. -/
theorem seqInstr_lawful {lockable : Bool} {body : M Unit} (hb : Steady s body)
    (h : seqInstr lockable body s = .next t) : Lawful s t :=
  instr_lawful (hb.bind fun _ => advance_steady) h

/-- Prefixes are noted in the decode context, which nobody watches (30_encoding.md R305). -/
theorem notePrefix_lawful {c : Ctx} (h : (.next { s with ctx := c } : Outcome) = .next t) : Lawful s t :=
  Host.Outcome.next.inj h ▸ .of_watched rfl

/-- What an instruction that accepts no LOCK can do: end, take the exception its meaning raised from the state a fault
leaves, or take the exception for LOCK (30_encoding.md R308). -/
theorem instr_next {body : M Unit} (h : instr false body s = .next t) :
    (∃ u, body (Tx.start s) = .ok () u ∧ t = complete s u.cur) ∨
      (∃ x u, body (Tx.start s) = .error (.raise x) u ∧ takeException x u.base = .next t) ∨
      ∃ x, takeException x s = .next t := by
  cases hl : s.ctx.lock with
  | true =>
    rw [instr_lock hl] at h
    exact .inr (.inr ⟨_, h⟩)
  | false =>
    have hnl : s.ctx.lock = true → false = true := fun hc => absurd (hl.symm.trans hc) (by decide)
    cases hr : body (Tx.start s) with
    | ok a u =>
      rw [instr_run hnl hr] at h
      exact .inl ⟨u, rfl, (Host.Outcome.next.inj h).symm⟩
    | error e u =>
      cases e with
      | raise x =>
        rw [instr_raise hnl hr] at h
        exact .inr (.inl ⟨x, u, rfl, h⟩)
      | refuse r =>
        have hn : (do need (!s.ctx.lock || false) raiseUD; body : M Unit) (Tx.start s) = .error (.refuse r) u := by
          rw [hl, bind_run]
          exact hr
        unfold instr at h
        unfold Tx.start at hn
        rw [hn] at h
        exact absurd h (by simp)

/-! ## The writes of CR0 -/

/-- A computation that may change the mode at its end: begun where `SameMode s` holds, it ends in a state that is lawful
after `s`, or raises an exception with the state a fault goes back to in the same mode. -/
structure EndsLawful (s : State) (m : M Unit) : Prop where
  ends : ∀ t : Tx, SameMode s t.cur → SameMode s t.base →
    match m t with
    | .ok _ u => Lawful s u.cur
    | .error _ u => SameMode s u.base

/-- A computation that does not change the mode. -/
theorem EndsLawful.of_steady {m : M Unit} (h : Steady s m) : EndsLawful s m := by
  refine ⟨fun t hc hb => ?_⟩
  have hk := h.keeps t hc hb
  cases hr : m t with
  | ok a u => rw [hr] at hk; exact hk.1.toLawful
  | error e u => rw [hr] at hk; exact hk.2

/-- A computation that does not change the mode, and then one that may. -/
theorem EndsLawful.bind {α : Type} {x : M α} {f : α → M Unit} (hx : Steady s x) (hf : ∀ a, EndsLawful s (f a)) :
    EndsLawful s (x >>= f) := by
  refine ⟨fun t hc hb => ?_⟩
  have hk := hx.keeps t hc hb
  rw [bind_run]
  cases hr : x t with
  | ok a u => rw [hr] at hk; exact (hf a).ends u hk.1 hk.2
  | error e u => rw [hr] at hk; exact hk.2

/-- A computation that may change the mode, and then one that cannot fail and does not change it. -/
theorem EndsLawful.andThen {x y : M Unit} (hx : EndsLawful s x)
    (hy : ∀ t : Tx, ∃ u : Tx, y t = .ok () u ∧ SameMode t.cur u.cur) : EndsLawful s (x >>= fun _ => y) := by
  refine ⟨fun t hc hb => ?_⟩
  have hk := hx.ends t hc hb
  rw [bind_run]
  cases hr : x t with
  | ok a u =>
    rw [hr] at hk
    obtain ⟨v, hv, huv⟩ := hy u
    simp only [hv]
    exact hk.trans huv.toLawful
  | error e u => rw [hr] at hk; exact hk

/-- An update that may change the mode. -/
theorem EndsLawful.upd {f : State → State} (h : ∀ u, Lawful u (f u)) : EndsLawful s (upd f) :=
  ⟨fun _ hc _ => hc.toLawful.trans (h _)⟩

/-- Going on to the next instruction cannot fail. -/
theorem advance_ends (v : Tx) : ∃ u : Tx, upd (·.advance) v = .ok () u ∧ SameMode v.cur u.cur :=
  ⟨_, rfl, .of_watched rfl⟩

/-- Nor can the drawing of the status flags. -/
theorem anyFlags_ends (v : Tx) : ∃ u : Tx, anyFlags v = .ok () u ∧ SameMode v.cur u.cur :=
  ⟨_, rfl, (SameMode.drawn 1).trans (.setFlags _)⟩

/-- An instruction that may change the mode leads to a lawful next state. -/
theorem seqInstr_endsLawful {body : M Unit} (hb : EndsLawful s body) (h : seqInstr false body s = .next t) :
    Lawful s t := by
  have hk := (hb.andThen advance_ends).ends (Tx.start s) (.refl s) (.refl s)
  rcases instr_next h with ⟨u, hr, rfl⟩ | ⟨x, u, hr, hx⟩ | ⟨x, hx⟩
  · rw [hr] at hk
    exact hk.trans (SameMode.complete s u.cur).toLawful
  · rw [hr] at hk
    exact (hk.trans (takeException_sameMode hx)).toLawful
  · exact (takeException_sameMode hx).toLawful

/-- Writing CR0 with a legal value, where real-address mode is left at level 0 or not entered. -/
theorem Lawful.setCr0 {c : Dword} (hc : s.cr0Legal = true → State.cr0Legal { s with cr0 := c } = true)
    (hl : s.levelLegal → State.levelLegal { s with cr0 := c }) : Lawful s { s with cr0 := c } :=
  ⟨id, id, hc, id, id, hl, List.prefix_refl _, Nat.le_refl _⟩

/-- MOV to CR0 keeps PG with PE, stores no undefined bit, and needs level 0 (46_system.md R800). -/
theorem Lawful.movCr0 (v : Dword) (hp : (!s.pe || s.cpl == 0) = true) (hv : (!(v.getLsbD 31 && !v.getLsbD 0)) = true) :
    Lawful s { s with cr0 := v &&& 0x8000001F } := by
  have hpe : (v &&& 0x8000001F).getLsbD 0 = v.getLsbD 0 := (BitVec.getLsbD_and ..).trans (Bool.and_true _)
  have hpg : (v &&& 0x8000001F).getLsbD 31 = v.getLsbD 31 := (BitVec.getLsbD_and ..).trans (Bool.and_true _)
  have hrest : v &&& 0x8000001F &&& 0x7FFFFFE0 = 0 := (BitVec.and_assoc ..).trans BitVec.and_zero
  refine .setCr0 (fun _ => ?_) fun hl _ => ?_
  · simp only [State.cr0Legal, State.pg, State.pe, hpe, hpg, hrest]
    simpa using hv
  · cases hs : s.pe with
    | false => exact hl hs
    | true => simpa [hs] using hp

/-- LMSW changes the low four bits of CR0 and cannot clear PE (46_system.md R780). -/
theorem Lawful.lmsw (v : Word) :
    Lawful s { s with cr0 := putField s.cr0 0 (v.extractLsb' 1 3 ++ BitVec.ofBool (s.pe || v.getLsbD 0)) } := by
  generalize hx : v.extractLsb' 1 3 ++ BitVec.ofBool (s.pe || v.getLsbD 0) = x
  have hx0 : x.getLsbD 0 = (s.pe || v.getLsbD 0) := by
    rw [← hx, BitVec.getLsbD_append]
    cases s.pe || v.getLsbD 0 <;> rfl
  have hpe : (putField s.cr0 0 x).getLsbD 0 = (s.pe || v.getLsbD 0) := by
    rw [getLsbD_putField _ _ _ _ (by decide), if_pos (by decide)]
    exact hx0
  have hpg : (putField s.cr0 0 x).getLsbD 31 = s.pg := by
    rw [getLsbD_putField _ _ _ _ (by decide), if_neg (by decide)]
    rfl
  have hrest : putField s.cr0 0 x &&& 0x7FFFFFE0 = s.cr0 &&& 0x7FFFFFE0 := by
    apply BitVec.eq_of_getLsbD_eq
    intro j hj
    rw [BitVec.getLsbD_and, BitVec.getLsbD_and, getLsbD_putField _ _ _ _ hj]
    split
    · rename_i h
      have hm : (0x7FFFFFE0 : Dword).getLsbD j = false := by
        have hj4 : j < 4 := h.2
        revert hj4
        clear h hj
        revert j
        decide
      rw [hm, Bool.and_false, Bool.and_false]
    · rfl
  refine .setCr0 (fun hc => ?_) fun hl hn => hl ?_
  · have hnew : State.cr0Legal { s with cr0 := putField s.cr0 0 x } =
        ((!s.pg || (s.pe || v.getLsbD 0)) && s.cr0 &&& 0x7FFFFFE0 == 0) := by
      rw [← hpe, ← hpg, ← hrest]
      rfl
    rw [State.cr0Legal, Bool.and_eq_true] at hc
    rw [hnew, ← Bool.or_assoc, hc.1, hc.2]
    rfl
  · have hn' : (s.pe || v.getLsbD 0) = false := hpe.symm.trans hn
    exact (Bool.or_eq_false_iff.mp hn').1

theorem writeCr_ends (n : BitVec 3) (v : Dword) : EndsLawful s (writeCr n v) := by
  unfold writeCr
  split
  · refine ⟨fun t hc hb => ?_⟩
    simp only [needPrivilege, bind_run, look_run]
    cases hp : !t.cur.pe || t.cur.cpl == 0 with
    | false => exact hb
    | true =>
      simp only [need_true]
      cases hv : !(v.getLsbD 31 && !v.getLsbD 0) with
      | false => exact hb
      | true => exact hc.toLawful.trans (.movCr0 v hp hv)
  · exact .of_steady (needPrivilege_steady.bind fun _ => .unwatched)
  · exact .of_steady (needPrivilege_steady.bind fun _ => .upd fun u =>
      have hcr3 : SameMode u { u with cr3 := v &&& 0xFFFFF000 } := .of_watched rfl
      hcr3.trans .flushTlb)
  · exact .of_steady (.raise _ _)

/-- MOV Cd,Rd (46_system.md R800). -/
theorem execMovCdRd_lawful {n : BitVec 3} {r : Gpr} (h : execMovCdRd n r s = .next t) : Lawful s t :=
  seqInstr_endsLawful (.bind (.look _) fun v => (writeCr_ends n v).andThen anyFlags_ends) h

/-- LMSW (46_system.md R780). -/
theorem execLmswEw_lawful {e : RM Gpr} (h : execLmswEw e s = .next t) : Lawful s t :=
  seqInstr_endsLawful (.bind needPrivilege_steady fun _ => .bind (readV_steady 16 e) fun v => .upd fun _ => .lmsw v) h

/-! ## Every instruction -/

/-- Whatever is executed leads to a lawful next state: each case cites what is known of its body. -/
theorem exec_lawful (i : Instr) (h : exec i s = .next t) : Lawful s t := by
  cases i with
  | addEbGb | addGbEb | addALIb | orEbGb | orGbEb | orALIb | adcEbGb | adcGbEb | adcALIb | sbbEbGb | sbbGbEb |
  sbbALIb | andEbGb | andGbEb | andALIb | subEbGb | subGbEb | subALIb | xorEbGb | xorGbEb | xorALIb | addEbIb |
  orEbIb | adcEbIb | sbbEbIb | andEbIb | subEbIb | xorEbIb =>
    exact seqInstr_lawful (binEb_steady (by simp) (by simp)) h
  | addEvGv | addGvEv | addEAXIv | orEvGv | orGvEv | orEAXIv | adcEvGv | adcGvEv | adcEAXIv | sbbEvGv | sbbGvEv |
  sbbEAXIv | andEvGv | andGvEv | andEAXIv | subEvGv | subGvEv | subEAXIv | xorEvGv | xorGvEv | xorEAXIv | addEvIv |
  addEvIb | orEvIv | orEvIb | adcEvIv | adcEvIb | sbbEvIv | sbbEvIb | andEvIv | andEvIb | subEvIv | subEvIb |
  xorEvIv | xorEvIb =>
    exact seqInstr_lawful (binEv_steady (by simp) (by simp)) h
  | cmpEbGb | cmpGbEb | cmpALIb | cmpEbIb | testEbGb | testALIb | testEbIb =>
    exact seqInstr_lawful (cmpEb_steady (by simp) (by simp)) h
  | cmpEvGv | cmpGvEv | cmpEAXIv | cmpEvIv | cmpEvIb | testEvGv | testEAXIv | testEvIv =>
    exact seqInstr_lawful (cmpEv_steady (by simp) (by simp)) h
  | notEb | negEb | incEb | decEb => exact seqInstr_lawful (unEb_steady (by simp)) h
  | incRv | decRv | notEv | negEv | incEv | decEv => exact seqInstr_lawful (unEv_steady (by simp)) h
  | imulGvEvIv | imulGvEvIb =>
    exact seqInstr_lawful (.withOsz fun _ => (readV_steady _ _).bind fun _ => imulTo_steady _ _ _ _) h
  | mulEb | imulEb => exact seqInstr_lawful (mulByte_steady _ _) h
  | mulEv | imulEv => exact seqInstr_lawful (mulWord_steady _ _) h
  | imulGvEv =>
    exact seqInstr_lawful (.withOsz fun _ => (Steady.look _).bind fun _ => (readV_steady _ _).bind fun _ =>
      imulTo_steady _ _ _ _) h
  | divEb | idivEb => exact seqInstr_lawful (divByte_steady _ _) h
  | divEv | idivEv => exact seqInstr_lawful (divWord_steady _ _) h
  | daa | das => exact seqInstr_lawful (adjustAL_steady _) h
  | aaa | aas => exact seqInstr_lawful (adjustAX_steady _) h
  | aamIb => exact seqInstr_lawful (aamBody_steady _) h
  | aadIb => exact seqInstr_lawful (aadBody_steady _) h
  | setccEb => exact seqInstr_lawful (setByte_steady _ _) h
  | rolEbIb | rorEbIb | rclEbIb | rcrEbIb | shlEbIb | shrEbIb | sarEbIb | rolEb1 | rolEbCL | rorEb1 | rorEbCL |
  rclEb1 | rclEbCL | rcrEb1 | rcrEbCL | shlEb1 | shlEbCL | shrEb1 | shrEbCL | sarEb1 | sarEbCL =>
    exact seqInstr_lawful (shiftEb_steady (by simp)) h
  | rolEvIb | rorEvIb | rclEvIb | rcrEvIb | shlEvIb | shrEvIb | sarEvIb | rolEv1 | rolEvCL | rorEv1 | rorEvCL |
  rclEv1 | rclEvCL | rcrEv1 | rcrEvCL | shlEv1 | shlEvCL | shrEv1 | shrEvCL | sarEv1 | sarEvCL =>
    exact seqInstr_lawful (shiftEv_steady (by simp)) h
  | shldEvGvIb | shldEvGvCL | shrdEvGvIb | shrdEvGvCL => exact seqInstr_lawful (doubleShift_steady _ _ _ (by simp)) h
  | btEvGv | btEvIb => exact seqInstr_lawful (bitTest_steady _ _) h
  | btsEvGv | btrEvGv | btsEvIb | btrEvIb | btcEvIb | btcEvGv => exact seqInstr_lawful (bitChange_steady _ _ _) h
  | bsfGvEv | bsrGvEv => exact seqInstr_lawful (bitScan_steady _ _ _) h
  | movEbGb | movGbEb | movRbIb | movEbIb => exact seqInstr_lawful (movEb_steady (by simp)) h
  | movEvGv | movGvEv | movRvIv | movEvIv => exact seqInstr_lawful (movEv_steady (by simp)) h
  | movSwEw => exact seqInstr_lawful (movSreg_steady _ _) h
  | movALOb => exact seqInstr_lawful (loadMoffs8_steady _) h
  | movEAXOv => exact seqInstr_lawful (loadMoffs_steady _) h
  | movObAL => exact seqInstr_lawful (storeMoffs8_steady _) h
  | movOvEAX => exact seqInstr_lawful (storeMoffs_steady _) h
  | movEwSw => exact seqInstr_lawful ((Steady.look _).bind fun _ => storeWord_steady _ _) h
  | xchgEbGb => exact seqInstr_lawful ((placeB_steady _ _).bind fun _ => swap_steady _ _ _) h
  | xchgEvGv => exact seqInstr_lawful (.withOsz fun _ => (placeV_steady _ _ _).bind fun _ => swap_steady _ _ _) h
  | xchgEAXRv => exact seqInstr_lawful (.withOsz fun _ => swap_steady _ _ _) h
  | pushRv => exact seqInstr_lawful (.withOsz fun _ => (Steady.look _).bind fun _ => push_steady _ _) h
  | pushIv | pushIb => exact seqInstr_lawful (.withOsz fun _ => push_steady _ _) h
  | pushEv => exact seqInstr_lawful (.withOsz fun _ => (readV_steady _ _).bind fun _ => push_steady _ _) h
  | pushES | pushCS | pushSS | pushDS | pushFS | pushGS => exact seqInstr_lawful (pushSreg_steady _) h
  | pusha => exact seqInstr_lawful pushaBody_steady h
  | pushf => exact seqInstr_lawful pushfBody_steady h
  | popRv | popEv => exact seqInstr_lawful (popEv_steady _) h
  | popES | popSS | popDS | popFS | popGS => exact seqInstr_lawful (popSreg_steady _) h
  | popa => exact seqInstr_lawful popaBody_steady h
  | popf => exact seqInstr_lawful popfBody_steady h
  | movzxGvEb | movsxGvEb =>
    exact seqInstr_lawful (.withOsz fun _ => (readB_steady _).bind fun _ => extendTo_steady _ _ _ _) h
  | movzxGvEw | movsxGvEw =>
    exact seqInstr_lawful (.withOsz fun _ => (readV_steady _ _).bind fun _ => extendTo_steady _ _ _ _) h
  | cbw => exact seqInstr_lawful cbwBody_steady h
  | cwd => exact seqInstr_lawful cwdBody_steady h
  | xlat => exact seqInstr_lawful xlatBody_steady h
  | lesGvMp | ldsGvMp | lssGvMp | lfsGvMp | lgsGvMp => exact seqInstr_lawful (loadFar_steady _ _ _) h
  | leaGvM => exact seqInstr_lawful (.withOsz fun _ => .unwatched) h
  | retIw | ret => exact instr_lawful (nearReturn_steady _) h
  | callJv => exact instr_lawful ((Steady.look _).bind fun _ => nearCall_steady _) h
  | callEv => exact instr_lawful (.withOsz fun _ => (readV_steady _ _).bind fun _ => nearCall_steady _) h
  | jmpEv => exact instr_lawful (.withOsz fun _ => (readV_steady _ _).bind fun _ => nearBranch_steady _) h
  | jccJb | jcxzJb | jccJv => exact instr_lawful (jumpIf_steady _ _) h
  | jmpJv | jmpJb => exact instr_lawful (jumpRel_steady _) h
  | loopneJb | loopeJb | loopJb => exact instr_lawful (loopWhile_steady _ _) h
  | callAp | jmpAp => exact instr_lawful (farTransfer_steady _ _ _) h
  | retfIw | retf => exact instr_lawful (farReturn_steady _) h
  | callEp | jmpEp => exact instr_lawful (farIndirect_steady _ _) h
  | intIb | int3 => exact instr_lawful (softwareInt_steady _) h
  | into => exact instr_lawful intoBody_steady h
  | iret => exact instr_lawful returnFromException_steady h
  | boundGvMa => exact seqInstr_lawful (boundBody_steady _ _) h
  | enterIwIb => exact seqInstr_lawful (enterBody_steady _ _) h
  | leave => exact seqInstr_lawful leaveBody_steady h
  | cmc | clc | stc | cld | std => exact seqInstr_lawful (updFlag_steady _ _) h
  | cli => exact seqInstr_lawful cliBody_steady h
  | sti => exact seqInstr_lawful stiBody_steady h
  | sahf => exact seqInstr_lawful sahfBody_steady h
  | nop => exact seqInstr_lawful (.pure _) h
  | hlt => exact seqInstr_lawful hltBody_steady h
  | esc0 | esc1 | esc2 | esc3 | esc4 | esc5 | esc6 | esc7 => exact seqInstr_lawful (escBody_steady _ _) h
  | wait => exact seqInstr_lawful waitBody_steady h
  | lahf => exact seqInstr_lawful .unwatched h
  | arplEwGw => exact seqInstr_lawful (arplBody_steady _ _) h
  | sldtEw | strEw =>
    exact seqInstr_lawful (needProtected_steady.bind fun _ => (Steady.look _).bind fun _ => storeWord_steady _ _) h
  | lldtEw => exact seqInstr_lawful (lldtBody_steady _) h
  | ltrEw => exact seqInstr_lawful (ltrBody_steady _) h
  | verrEw | verwEw => exact seqInstr_lawful (verifyBody_steady _ _) h
  | sgdtMs | sidtMs => exact seqInstr_lawful ((Steady.look _).bind fun _ => storeTable_steady _ _) h
  | lgdtMs | lidtMs => exact seqInstr_lawful ((loadTable_steady _).bind fun _ => .unwatched) h
  | smswEw => exact seqInstr_lawful (readMsw_steady.bind fun _ => storeWord_steady _ _) h
  | larGvEw => exact seqInstr_lawful (larBody_steady _ _) h
  | lslGvEw => exact seqInstr_lawful (lslBody_steady _ _) h
  | movRdCd =>
    exact seqInstr_lawful ((readCr_steady _).bind fun _ => (Steady.unwatched).bind fun _ => anyFlags_steady) h
  | movRdDd =>
    exact seqInstr_lawful ((readDr_steady _).bind fun _ => (Steady.unwatched).bind fun _ => anyFlags_steady) h
  | movDdRd =>
    exact seqInstr_lawful ((Steady.look _).bind fun _ => (writeDr_steady _ _).bind fun _ => anyFlags_steady) h
  | movRdTd =>
    exact seqInstr_lawful ((readTr_steady _).bind fun _ => (Steady.unwatched).bind fun _ => anyFlags_steady) h
  | movTdRd =>
    exact seqInstr_lawful ((Steady.look _).bind fun _ => (writeTr_steady _ _).bind fun _ => anyFlags_steady) h
  | clts => exact seqInstr_lawful cltsBody_steady h
  | inALIb | inEAXIb | inALDX | inEAXDX => exact seqInstr_lawful (inBody_steady (by simp) (by simp)) h
  | outIbAL | outIbEAX | outDXAL | outDXEAX => exact seqInstr_lawful (outBody_steady (by simp) (by simp)) h
  | insb | insv => exact instr_lawful (repeated_steady (by simp) inElement_steady) h
  | outsb | outsv => exact instr_lawful (repeated_steady (by simp) outElement_steady) h
  | movsb | movsv => exact instr_lawful (repeated_steady (by simp) moveElement_steady) h
  | cmpsb | cmpsv => exact instr_lawful (repeated_steady (by simp) compareElement_steady) h
  | stosb | stosv => exact instr_lawful (repeated_steady (by simp) storeElement_steady) h
  | lodsb | lodsv => exact instr_lawful (repeated_steady (by simp) loadElement_steady) h
  | scasb | scasv => exact instr_lawful (repeated_steady (by simp) scanElement_steady) h
  | lmswEw => exact execLmswEw_lawful h
  | movCdRd => exact execMovCdRd_lawful h
  | pfxES | pfxCS | pfxSS | pfxDS | pfxFS | pfxGS | pfxOpSize | pfxAddrSize | pfxLock | pfxRepne | pfxRep =>
    exact notePrefix_lawful h

/-! ## Every step -/

/-- Fetching and running one instruction. -/
theorem runNext_lawful (h : runNext exec s = .next t) : Lawful s t := by
  have hf := fetchInstr_steady.keeps ⟨s, s, false⟩ (.refl s) (.refl s)
  unfold runNext at h
  split at h
  · rename_i len u hr
    rw [hr] at hf
    have hstart : SameMode s (u.cur.begin len).refill := hf.1.trans (.of_watched rfl)
    exact runItems_keeps (fun i _ _ hs he => hs.trans (exec_lawful i he)) _ hstart.toLawful h
  · rename_i u hr
    rw [hr] at hf
    exact (hf.2.trans (takeException_sameMode h)).toLawful
  · simp at h

/-- RESET (10_state.md R120 to R130): the registers are legal, memory and the environment's history stay. -/
theorem Lawful.afterReset (s : State) : Lawful s s.afterReset := by
  obtain ⟨⟨_, hflags, hcr0, hdr7, htlb⟩, hlevel, _⟩ := invariantAfterReset
  exact ⟨id, fun _ => hflags, fun _ => hcr0, fun _ => hdr7, fun _ => htlb, fun _ => hlevel, List.prefix_refl _,
    Nat.le_refl _⟩

/-- Every step leads to a lawful next state. -/
theorem step_lawful (h : step s = .next t) : Lawful s t := by
  have hb (b : Bool) : Lawful s { s.clearShadows with trapPending := b } := .of_watched rfl
  unfold step boundary at h
  split at h
  · exact Host.Outcome.next.inj h ▸ .afterReset s
  · split at h
    · exact Host.Outcome.next.inj h ▸ .refl s
    · split at h
      · exact (hb _).trans (takeEvent_sameMode h).toLawful
      · split at h
        · exact (hb _).trans (runNext_lawful h)
        all_goals exact Host.Outcome.next.inj h ▸ hb _

/-! ## The obligations of tier 3 -/

/-- Settles O8: the next state is lawful, so each part of the invariant stays. -/
theorem stepKeepsInvariant : Obligations.StepKeepsInvariant := fun _ _ hs h => (step_lawful h).inv hs

/-- Settles O9: the next state is lawful, so real-address mode stays at level 0. -/
theorem stepKeepsRealModeLevel : Obligations.StepKeepsRealModeLevel := fun _ _ hs h => (step_lawful h).level hs

end Sys2Proof.Machine
end

section
/-! PROOFS. Bytes in memory and the checks of a segment: the order of the bytes of a value, what a store leaves at its
own addresses, and the obligations about the history (O10), stored values (O11), limits (O12) and segment checks
(O13). -/

namespace Sys2Proof.Machine

/-! ## The bytes of a value -/

/-- The low bytes of a value hold it modulo 256 to their number (20_memory.md R141). -/
theorem leNat_leBytes (n : Nat) {w : Nat} (v : BitVec w) : leNat (leBytes n v) = v.toNat % 256 ^ n := by
  induction n generalizing v with
  | zero => rw [Nat.pow_zero, Nat.mod_one]; rfl
  | succ n ih =>
    calc leNat (leBytes (n + 1) v) = v.toNat % 256 + 256 * (v.toNat / 256 % 256 ^ n) := by
          simp [leBytes, leNat, ih, Nat.shiftRight_eq_div_pow]
      _ = v.toNat % 256 ^ (n + 1) := by rw [Nat.pow_succ', Nat.mod_mul]

/-- A value is what its own bytes hold. -/
theorem leVal_leBytes {n : Nat} (v : BitVec (8 * n)) : leVal (8 * n) (leBytes n v) = v := by
  have hn : (256 : Nat) ^ n = 2 ^ (8 * n) := by rw [Nat.pow_mul]
  rw [leVal, leNat_leBytes, hn, Nat.mod_eq_of_lt v.isLt, BitVec.ofNat_toNat, BitVec.setWidth_eq]

/-- Byte `i` of a value is its eight bits from bit `8 * i` on. -/
theorem leBytes_eq_map (n : Nat) {w : Nat} (v : BitVec w) :
    leBytes n v = (List.range n).map fun i => v.extractLsb' (8 * i) 8 := by
  induction n generalizing v with
  | zero => rfl
  | succ n ih =>
    have hlow : v.setWidth 8 = v.extractLsb' (8 * 0) 8 := by
      apply BitVec.eq_of_getLsbD_eq
      simp
    have hshift (i : Nat) : (v >>> 8).extractLsb' (8 * i) 8 = v.extractLsb' (8 * (i + 1)) 8 := by
      apply BitVec.eq_of_getLsbD_eq
      intro j hj
      simp [hj, show 8 + (8 * i + j) = 8 * (i + 1) + j by omega]
    rw [List.range_succ_eq_map, List.map_cons, List.map_map, leBytes, hlow, ih]
    simp only [hshift, Function.comp_def, Nat.succ_eq_add_one]

/-! ## What a store leaves at its own addresses -/

/-- Up to 2^32 bytes in a row lie at different addresses. -/
theorem addrsFrom_nodup (la : Dword) {n : Nat} (h : n ≤ 2 ^ 32) : (addrsFrom la n).Nodup := by
  refine List.Nodup.map_on (fun i hi j hj he => ?_) List.nodup_range
  have hi' := List.mem_range.mp hi
  have hj' := List.mem_range.mp hj
  have hij : (BitVec.ofNat 32 i).toNat = (BitVec.ofNat 32 j).toNat := congrArg _ (BitVec.add_right_inj la |>.mp he)
  rwa [BitVec.toNat_ofNat, BitVec.toNat_ofNat, Nat.mod_eq_of_lt (by omega), Nat.mod_eq_of_lt (by omega)] at hij

/-- Bytes stored at different addresses of RAM read back. -/
theorem storeBytes_map_byteAt (s : State) (h : Memory.wf s.mem = true) {pas : List Dword} {bs : List Byte}
    (hd : pas.Nodup) (hl : pas.length = bs.length) (hr : ∀ pa ∈ pas, s.kindAt pa.toNat = .ram) :
    pas.map (s.storeBytes pas bs).byteAt = bs := by
  induction pas generalizing s bs with
  | nil => exact (List.length_eq_zero_iff.mp hl.symm).symm
  | cons pa rest ih =>
    cases bs with
    | nil => simp at hl
    | cons b bs =>
      obtain ⟨hpa, hrest⟩ := List.nodup_cons.mp hd
      have hwf : Memory.wf (s.storeByte pa b).mem = true := storeByte_wf s pa b h
      have hfirst : ((s.storeByte pa b).storeBytes rest bs).byteAt pa = b := by
        rw [storeBytes_byteAt_of_not_mem _ hwf rest bs pa hpa,
          storeByte_byteAt s ((memory_wf_iff _).mp h).1 pa pa b (hr pa (by simp)), if_pos rfl]
      have hothers : rest.map ((s.storeByte pa b).storeBytes rest bs).byteAt = bs :=
        ih _ hwf hrest (by simpa using hl) fun x hx => by rw [storeByte_kindAt]; exact hr x (by simp [hx])
      exact congrArg₂ List.cons hfirst hothers

/-! ## The checks of a segment -/

/-- The limit check of an expand-up segment (20_memory.md R200). -/
theorem inLimit_up {g : SegReg} {off : Dword} {n : Nat} (h : (!g.typ.getLsbD 3 && g.typ.getLsbD 2) = false) :
    g.inLimit off n = true ↔ off.toNat + n - 1 ≤ g.limit.toNat := by
  rw [SegReg.inLimit, h, if_neg Bool.false_ne_true, decide_eq_true_iff]

/-- The limit check of an expand-down segment (20_memory.md R202). -/
theorem inLimit_down {g : SegReg} {off : Dword} {n : Nat} (h : (!g.typ.getLsbD 3 && g.typ.getLsbD 2) = true) :
    g.inLimit off n = true ↔
      g.limit.toNat < off.toNat ∧ off.toNat + n - 1 ≤ if g.db then 0xFFFFFFFF else 0xFFFF := by
  rw [SegReg.inLimit, h, if_pos rfl, decide_eq_true_iff]

/-- The last of some bytes lies below a bound exactly where each of them does. -/
theorem last_le_iff {off n top : Nat} (hn : 0 < n) : off + n - 1 ≤ top ↔ ∀ k < n, off + k ≤ top := by
  refine ⟨fun h k hk => by omega, fun h => ?_⟩
  have hlast : off + (n - 1) ≤ top := h (n - 1) (by omega)
  omega

/-- A plan whose segment checks stop stops with them. -/
theorem memPlan_error {r : Sreg} {off : Dword} {n : Nat} {w : Bool} {t : Tx} {e : Stop}
    (h : segCheck r off n w t = .error e t) : memPlan r off n w t = .error e t := bind_run_error h

/-- An error code of 0 stays 0 where no event is being delivered (60_exceptions.md R930). -/
theorem raiseCode_zero_start {α : Type} (v : Byte) (s : State) :
    (raiseCode v 0 : M α) (Tx.start s) = .error (.raise { vec := v, err := some 0 }) (Tx.start s) := by
  have hcode : (0 : Word) ||| bitVal (Tx.start s).ext = 0 := BitVec.or_zero
  rw [raiseCode_run, hcode]

/-- The exception of a limit violation (20_memory.md R200). -/
theorem raiseLimit_start {α : Type} (r : Sreg) (s : State) :
    (raiseLimit r : M α) (Tx.start s) =
      .error (.raise { vec := if r = .ss then 12 else 13, err := some 0 }) (Tx.start s) := by
  cases r <;> exact raiseCode_zero_start _ s

section

variable {s : State} {r : Sreg} {off : Dword} {n : Nat} {w : Bool}

/-- A segment register that is not valid stops the access (20_memory.md R173). -/
theorem segCheck_invalid (hv : (s.seg r).valid = false) :
    segCheck r off n w (Tx.start s) = .error (.raise { vec := 13, err := some 0 }) (Tx.start s) :=
  bind_then (look_run _ _) <| bind_then (look_run _ _) <| bind_run_error <|
    (need_fail hv).trans (raiseCode_zero_start 13 s)

/-- So does a type that forbids the kind of access (20_memory.md R200). -/
theorem segCheck_forbidden (hv : (s.seg r).valid = true) (ha : ((s.seg r).allows w || (r == .cs && !s.pe)) = false) :
    segCheck r off n w (Tx.start s) = .error (.raise { vec := 13, err := some 0 }) (Tx.start s) :=
  bind_then (look_run _ _) <| bind_then (look_run _ _) <| bind_then (need_run hv) <| bind_run_error <|
    (need_fail ha).trans (raiseCode_zero_start 13 s)

/-- So does an offset outside the limit (20_memory.md R200). -/
theorem segCheck_outside (hv : (s.seg r).valid = true) (ha : ((s.seg r).allows w || (r == .cs && !s.pe)) = true)
    (hl : (s.seg r).inLimit off n = false) :
    segCheck r off n w (Tx.start s) =
      .error (.raise { vec := if r = .ss then 12 else 13, err := some 0 }) (Tx.start s) :=
  bind_then (look_run _ _) <| bind_then (look_run _ _) <| bind_then (need_run hv) <| bind_then (need_run ha) <|
    (need_fail hl).trans (raiseLimit_start r s)

end

/-! ## The obligations about history, memory and segments -/

/-- Settles O10: every step is lawful, and `Lawful` holds the history and the count of free values. -/
theorem stepExtendsHistory : Obligations.StepExtendsHistory := fun _ _ h =>
  ⟨(step_lawful h).ioLog, (step_lawful h).freeCtr⟩

/-- Settles O11: the addresses of a store differ, so its bytes read back: those of the value in order. -/
theorem storedValueReadsBack : Obligations.StoredValueReadsBack := by
  intro s la n v hm hn hr
  have hback : (addrsFrom la n).map (s.storeBytes (addrsFrom la n) (leBytes n v)).byteAt = leBytes n v :=
    storeBytes_map_byteAt s hm (addrsFrom_nodup la hn) (by simp) hr
  refine ⟨?_, fun i hi => ?_, fun pa hpa => storeBytes_byteAt_of_not_mem s hm _ _ pa hpa⟩
  · rw [State.valueAt, hback, leVal_leBytes]
  · rw [leBytes_eq_map, addrsFrom, List.map_map] at hback
    rw [leBytes_eq_map]
    exact List.map_inj_left.mp hback i (List.mem_range.mpr hi)

/-- Settles O12: the last byte decides the upper end of the access and the first byte its lower end. -/
theorem limitCheckIsBytewise : Obligations.LimitCheckIsBytewise := by
  intro g off n hn
  dsimp only
  cases hd : !g.typ.getLsbD 3 && g.typ.getLsbD 2 with
  | false =>
    simp only [Bool.false_eq_true, if_false]
    rw [inLimit_up hd, last_le_iff hn]
  | true =>
    simp only [if_true]
    rw [inLimit_down hd, last_le_iff hn]
    exact ⟨fun ⟨hlow, hhigh⟩ k hk => ⟨Nat.lt_add_right k hlow, hhigh k hk⟩,
      fun h => ⟨(h 0 hn).1, fun k hk => (h k hk).2⟩⟩

/-- Settles O13: the three checks are made in order, before anything changes. -/
theorem segmentChecksFault : Obligations.SegmentChecksFault := fun _ _ _ _ _ =>
  ⟨fun hv => memPlan_error (segCheck_invalid hv),
    fun hv ha => memPlan_error (segCheck_forbidden hv ha),
    fun hv ha hl => memPlan_error (segCheck_outside hv ha hl)⟩

end Sys2Proof.Machine
end

section
/-! PROOFS. Translation with paging on: what the walk of the two table levels, a TLB hit and the filling of the TLB do
when they run, what a completed walk leaves, and the obligations about translation (O14) and page faults (O15). -/

namespace Sys2Proof.Machine

/-! ## Page-table entries in memory -/

/-- The low byte of a value is its first byte (20_memory.md R141). -/
theorem leVal_setWidth_8 (b : Byte) (bs : List Byte) : (leVal 32 (b :: bs)).setWidth 8 = b := by
  apply BitVec.eq_of_toNat_eq
  have hb := b.isLt
  simp only [leVal, leNat, BitVec.toNat_setWidth, BitVec.toNat_ofNat]
  omega

/-- The low bits of a doubleword are bits of the byte at its address. -/
theorem peekD_getLsbD (s : State) (pa : Dword) {i : Nat} (hi : i < 8) :
    (s.peekD pa).getLsbD i = (s.byteAt pa).getLsbD i := by
  have hlow : (s.peekD pa).setWidth 8 = s.byteAt pa := by
    simp [State.peekD, addrsFrom, List.range_succ_eq_map, leVal_setWidth_8]
  rw [← hlow, BitVec.getLsbD_setWidth]
  simp [hi]

/-- The first byte of a doubleword of RAM is RAM. -/
theorem ramD_first {s : State} {pa : Dword} (h : s.ramD pa) : s.kindAt pa.toNat = .ram :=
  h pa (List.mem_map.mpr ⟨0, by decide, BitVec.add_zero pa⟩)

/-- A doubleword of RAM is read without any other effect. -/
theorem physReadD_run {pa : Dword} {t : Tx} (h : t.cur.ramD pa) : physReadD pa t = .ok (t.cur.peekD pa) t :=
  bind_then (readPhys_run _ t h) rfl

/-- Setting a bit that is set already changes nothing. -/
theorem or_twoPow_eq_self {n : Nat} {b : BitVec n} {i : Nat} (h : b.getLsbD i = true) :
    b ||| BitVec.twoPow n i = b := by
  apply BitVec.eq_of_getLsbD_eq
  intro j hj
  rw [BitVec.getLsbD_or, BitVec.getLsbD_twoPow]
  by_cases hij : i = j
  · rw [← hij, h, Bool.true_or]
  · simp [hij]

/-! ## Marking an entry -/

/-- The state after the byte at `pa` got more bits, where `c` asks for it. -/
def State.markedIf (s : State) (c : Bool) (pa : Dword) (bits : Byte) : State :=
  if c then s.storeByte pa (s.byteAt pa ||| bits) else s

/-- Marking changes the memory alone. -/
theorem markedIf_eq (s : State) (c : Bool) (pa : Dword) (bits : Byte) :
    s.markedIf c pa bits = { s with mem := (s.markedIf c pa bits).mem } := by
  unfold State.markedIf
  split
  · exact storeByte_eq ..
  · rfl

/-- Marking does not look at the count of free values. -/
theorem drawn_markedIf (s : State) (k : Nat) (c : Bool) (pa : Dword) (bits : Byte) :
    (s.drawn k).markedIf c pa bits = (s.markedIf c pa bits).drawn k := by
  unfold State.markedIf State.storeByte
  cases c with
  | false => rfl
  | true =>
    simp only [if_true, drawn_kindAt]
    split <;> rfl

/-- Marking keeps the canonical form of memory. -/
theorem markedIf_wf (s : State) (h : Memory.wf s.mem = true) (c : Bool) (pa : Dword) (bits : Byte) :
    Memory.wf (s.markedIf c pa bits).mem = true := by
  unfold State.markedIf
  split
  · exact storeByte_wf s pa _ h
  · exact h

/-- What memory reads as after marking, where the bits were there already if it was not asked for. -/
theorem markedIf_byteAt (s : State) (h : Memory.wf s.mem = true) {c : Bool} {pa : Dword} {bits : Byte}
    (hr : s.kindAt pa.toNat = .ram) (hc : c = false → s.byteAt pa ||| bits = s.byteAt pa) (x : Dword) :
    (s.markedIf c pa bits).byteAt x = if x = pa then s.byteAt pa ||| bits else s.byteAt x := by
  cases c with
  | true => exact storeByte_byteAt s ((memory_wf_iff _).mp h).1 pa x _ hr
  | false =>
    rw [hc rfl]
    split
    · rename_i hx
      rw [hx]
      rfl
    · rfl

/-- An entry in RAM is marked where the walk asks for it. -/
theorem markEntryIf_run {α : Type} {s : State} {pa entry : Dword} {bits : Byte} {c : Bool} {f : Unit → M α}
    {r : EStateM.Result Stop Tx α} (h : s.ramD pa) (hf : f () (Tx.start (s.markedIf c pa bits)) = r) :
    (if c = true then markEntry pa entry bits >>= f else f ()) (Tx.start s) = r := by
  cases c with
  | true => exact if_then rfl (bind_then (markEntry_run pa entry bits (Tx.start s) h) hf)
  | false => exact if_else Bool.false_ne_true hf

/-! ## The walk of the tables -/

/-- A computation for the case that a bit is clear. -/
theorem if_clear {α : Type} {b : Bool} {x y : M α} {t : Tx} {r : EStateM.Result Stop Tx α} (hb : b = false)
    (h : x t = r) : (if (!b) = true then x else y) t = r := if_then (by rw [hb]; rfl) h

/-- What follows where the bit is set. -/
theorem if_set {α : Type} {b : Bool} {x y : M α} {t : Tx} {r : EStateM.Result Stop Tx α} (hb : b = true)
    (h : y t = r) : (if (!b) = true then x else y) t = r := if_else (by rw [hb]; exact Bool.false_ne_true) h

/-- A page fault (20_memory.md R232). -/
theorem pageFault_run {α : Type} (la : Dword) (present write user : Bool) (s : State) :
    (pageFault la present write user : M α) (Tx.start s) =
      .error (.raise { vec := 14, err := some (pageCode present write user) }) (Tx.start { s with cr2 := la }) := by
  have hcode : putBit (putBit (putBit (0 : Word) 0 present) 1 write) 2 user = pageCode present write user := by
    cases present <;> cases write <;> cases user <;> rfl
  rw [← hcode]
  rfl

section

variable {s : State} {la : Dword} {write user : Bool}

/-- The tables map the address and its protection allows the access; both entries lie in RAM (20_memory.md R227 to
R230). -/
structure State.Maps (s : State) (la : Dword) (write user : Bool) : Prop where
  pdeRam : s.ramD (s.pdeAt la)
  pteRam : s.ramD (s.pteAt la)
  pdePresent : (s.pde la).getLsbD 0 = true
  ptePresent : (s.pte la).getLsbD 0 = true
  allowed : s.pageForbids la write user = false

/-- What the TLB takes from a completed walk (20_memory.md R264). -/
def State.walkEntry (s : State) (la : Dword) (write : Bool) : TlbEntry :=
  { tag := tlbTag la, v := true, d := (s.pte la).getLsbD 6 || write
    u := (s.pde la).getLsbD 2 && (s.pte la).getLsbD 2, w := (s.pde la).getLsbD 1 && (s.pte la).getLsbD 1
    frame := (s.pte la).extractLsb' 12 20 }

/-- The state after a completed walk has marked both entries (20_memory.md R225). -/
def State.walkMarked (s : State) (la : Dword) (write : Bool) : State :=
  (s.markedIf (!(s.pde la).getLsbD 5) (s.pdeAt la) 0x20).markedIf
    (!(s.pte la).getLsbD 5 || (write && !(s.pte la).getLsbD 6)) (s.pteAt la) (if write then 0x60 else 0x20)

/-- The walk finds no page table. -/
theorem pageWalk_no_table (hram : s.ramD (s.pdeAt la)) (hp : (s.pde la).getLsbD 0 = false) :
    pageWalk la write user (Tx.start s) = (pageFault la false write user : M Dword) (Tx.start s) := by
  unfold pageWalk
  exact bind_then (look_run _ _) (bind_then (physReadD_run hram) (if_clear hp rfl))

/-- The walk finds a page table, but no page. -/
theorem pageWalk_no_page (hram : s.ramD (s.pdeAt la)) (hp : (s.pde la).getLsbD 0 = true)
    (hram' : s.ramD (s.pteAt la)) (hp' : (s.pte la).getLsbD 0 = false) :
    pageWalk la write user (Tx.start s) = (pageFault la false write user : M Dword) (Tx.start s) := by
  unfold pageWalk
  exact bind_then (look_run _ _) (bind_then (physReadD_run hram) (if_set hp
    (bind_then (physReadD_run hram') (if_clear hp' rfl))))

/-- The walk finds a page that protection forbids. -/
theorem pageWalk_forbidden (hram : s.ramD (s.pdeAt la)) (hp : (s.pde la).getLsbD 0 = true)
    (hram' : s.ramD (s.pteAt la)) (hp' : (s.pte la).getLsbD 0 = true) (hf : s.pageForbids la write user = true) :
    pageWalk la write user (Tx.start s) = (pageFault la true write user : M Dword) (Tx.start s) := by
  unfold pageWalk
  exact bind_then (look_run _ _) (bind_then (physReadD_run hram) (if_set hp
    (bind_then (physReadD_run hram') (if_set hp' (if_then hf rfl)))))

/-- The walk completes: it marks both entries, fills the TLB and gives the frame and the offset. -/
theorem pageWalk_maps (h : s.Maps la write user) {u : State}
    (hfill : tlbFill la (s.walkEntry la write) (Tx.start (s.walkMarked la write)) = .ok () (Tx.start u)) :
    pageWalk la write user (Tx.start s) = .ok ((s.pte la).extractLsb' 12 20 ++ la.extractLsb' 0 12) (Tx.start u) := by
  obtain ⟨hram, hram', hp, hp', hf⟩ := h
  have hram'' : (s.markedIf (!(s.pde la).getLsbD 5) (s.pdeAt la) 0x20).ramD (s.pteAt la) := by
    rw [markedIf_eq]
    exact hram'
  unfold pageWalk
  exact bind_then (look_run _ _) (bind_then (physReadD_run hram) (if_set hp
    (bind_then (physReadD_run hram') (if_set hp' (if_else (ne_true_of_eq_false hf)
      (markEntryIf_run hram (markEntryIf_run hram'' (bind_then hfill rfl))))))))

/-! ## What a completed walk leaves -/

/-- A completed walk's marks change the memory alone. -/
theorem walkMarked_eq (s : State) (la : Dword) (write : Bool) :
    s.walkMarked la write = { s with mem := (s.walkMarked la write).mem } := by
  unfold State.walkMarked
  rw [markedIf_eq (s.markedIf ..), markedIf_eq s]

/-- They do not look at the count of free values. -/
theorem drawn_walkMarked (s : State) (k : Nat) (la : Dword) (write : Bool) :
    (s.drawn k).walkMarked la write = (s.walkMarked la write).drawn k := by
  unfold State.walkMarked
  rw [← drawn_markedIf, ← drawn_markedIf]
  rfl

/-- The accessed bit of an entry that has it already. -/
theorem or_accessed_eq_self (pa : Dword) (h : (s.peekD pa).getLsbD 5 = true) : s.byteAt pa ||| 0x20 = s.byteAt pa :=
  or_twoPow_eq_self ((peekD_getLsbD s pa (by decide)).symm.trans h)

/-- The accessed and dirty bits of an entry that has both already. -/
theorem or_dirty_eq_self (pa : Dword) (ha : (s.peekD pa).getLsbD 5 = true) (hd : (s.peekD pa).getLsbD 6 = true) :
    s.byteAt pa ||| 0x60 = s.byteAt pa := by
  have hbits : (0x60 : Byte) = 0x20 ||| BitVec.twoPow 8 6 := rfl
  rw [hbits, ← BitVec.or_assoc, or_accessed_eq_self pa ha]
  exact or_twoPow_eq_self ((peekD_getLsbD s pa (by decide)).symm.trans hd)

/-- Each table entry has its bits after a completed walk, and no other byte has changed (20_memory.md R225). -/
theorem walkMarked_byteAt (hm : Memory.wf s.mem = true) (h : s.Maps la write user) (hne : s.pdeAt la ≠ s.pteAt la)
    (x : Dword) :
    (s.walkMarked la write).byteAt x =
      if x = s.pteAt la then s.byteAt (s.pteAt la) ||| (if write then 0x60 else 0x20)
      else if x = s.pdeAt la then s.byteAt (s.pdeAt la) ||| 0x20 else s.byteAt x := by
  have hpde := markedIf_byteAt s hm (ramD_first h.pdeRam) (c := !(s.pde la).getLsbD 5) (bits := 0x20) fun hc =>
    or_accessed_eq_self _ (Bool.eq_true_of_not_eq_false' hc)
  have hsame : (s.markedIf (!(s.pde la).getLsbD 5) (s.pdeAt la) 0x20).byteAt (s.pteAt la) = s.byteAt (s.pteAt la) :=
    (hpde _).trans (if_neg hne.symm)
  unfold State.walkMarked
  rw [markedIf_byteAt _ (markedIf_wf s hm ..), hsame, hpde]
  · rw [markedIf_eq]
    exact ramD_first h.pteRam
  · intro hc
    rw [hsame]
    obtain ⟨ha, hd⟩ := Bool.or_eq_false_iff.mp hc
    cases write with
    | true => exact or_dirty_eq_self _ (Bool.eq_true_of_not_eq_false' ha) (Bool.eq_true_of_not_eq_false' hd)
    | false => exact or_accessed_eq_self _ (Bool.eq_true_of_not_eq_false' ha)

/-! ## The TLB -/

/-- The entry written reads back where the TLB has it; the other ways of the set keep theirs. -/
theorem tlbEntry_setTlbEntry (s : State) (la : Dword) (way w : Nat) (e : TlbEntry) :
    (s.setTlbEntry la way e).tlbEntry la w =
      if w = way ∧ Config.tlbWays * tlbSet la + way < s.tlb.length then e
      else if w = way then .invalid else s.tlbEntry la w := by
  unfold State.tlbEntry State.setTlbEntry
  rw [List.getElem?_set]
  by_cases hw : w = way
  · subst hw
    by_cases hl : Config.tlbWays * tlbSet la + w < s.tlb.length <;> simp [hl]
  · simp [hw, Ne.symm hw]

/-- Every way of a set is an entry of a TLB of 32 entries (10_state.md R105). -/
theorem tlbEntry_index_lt (la : Dword) {way : Nat} (h : way < Config.tlbWays) :
    Config.tlbWays * tlbSet la + way < 32 := by
  have hset : tlbSet la < 8 := Nat.mod_lt _ (by decide)
  simp only [Config.tlbWays] at h ⊢
  omega

/-- What a hit is (20_memory.md R231). -/
theorem mem_tlbHits {way : Nat} :
    way ∈ s.tlbHits la ↔
      way < Config.tlbWays ∧ (s.tlbEntry la way).v = true ∧ (s.tlbEntry la way).tag = tlbTag la := by
  simp [State.tlbHits]

/-- The state after the only entry that is hit has vanished (92_eei_decisions.md D14). -/
def State.vanished (s : State) (la : Dword) (way : Nat) : State :=
  (s.drawn 1).setTlbEntry la way { s.tlbEntry la way with v := false }

/-- With that entry gone nothing is hit. -/
theorem tlbHits_vanished {way : Nat} (hh : s.tlbHits la = [way]) : (s.vanished la way).tlbHits la = [] := by
  refine List.eq_nil_iff_forall_not_mem.mpr fun w hw => ?_
  obtain ⟨hlt, hv, htag⟩ := mem_tlbHits.mp hw
  rw [State.vanished, tlbEntry_setTlbEntry] at hv htag
  by_cases hway : w = way
  · rw [if_pos hway] at hv
    split at hv <;> exact Bool.false_ne_true hv
  · rw [if_neg (fun h => hway h.1), if_neg hway] at hv htag
    have hold : w ∈ s.tlbHits la := mem_tlbHits.mpr ⟨hlt, hv, htag⟩
    rw [hh] at hold
    exact hway (List.mem_singleton.mp hold)

/-- The TLB is filled in the way that holds the tag (20_memory.md R263). -/
theorem tlbFill_hit {way : Nat} (e : TlbEntry) (hh : s.tlbHits la = [way]) :
    tlbFill la e (Tx.start s) = .ok () (Tx.start (s.setTlbEntry la way e)) := by
  unfold tlbFill
  refine bind_then (look_run _ _) ?_
  rw [show (Tx.start s).cur.tlbHits la = [way] from hh]
  rfl

/-- Where no way holds the tag, an open value chooses one. -/
theorem tlbFill_miss (e : TlbEntry) (hh : s.tlbHits la = []) :
    tlbFill la e (Tx.start s) =
      .ok () (Tx.start ((s.drawn 1).setTlbEntry la ((s.any 0).toNat % Config.tlbWays) e)) := by
  unfold tlbFill
  refine bind_then (look_run _ _) ?_
  rw [show (Tx.start s).cur.tlbHits la = [] from hh]
  rfl

/-! ## Translation -/

/-- An entry that is hit and vanishes: the address is translated as if it had not been there. -/
theorem translate_vanished {way : Nat} (hp : s.pg = true) (hd : s.tlbDup.contains (tlbTag la) = false)
    (hh : s.tlbHits la = [way]) (hg : (s.any 0).getLsbD 0 = true) :
    translate la write user (Tx.start s) = translate la write user (Tx.start (s.vanished la way)) := by
  have hmiss : translate la write user (Tx.start (s.vanished la way)) =
      pageWalk la write user (Tx.start (s.vanished la way)) := translate_walk hp hd (tlbHits_vanished hh)
  have hlook : tlbLookup la (Tx.start s) = .ok none (Tx.start (s.vanished la way)) :=
    (tlbLookup_hit (t := Tx.start s) hd hh).trans (if_pos hg)
  rw [hmiss]
  unfold translate
  exact bind_then (look_run _ _) (if_then hp (bind_then hlook rfl))

/-- An entry that is hit and stays decides: a write walks the tables where D is 0, and protection is that of the
entry. -/
theorem translate_stays {way : Nat} (hp : s.pg = true) (hd : s.tlbDup.contains (tlbTag la) = false)
    (hh : s.tlbHits la = [way]) (hg : ¬(s.any 0).getLsbD 0 = true) :
    let e := s.tlbEntry la way
    translate la write user (Tx.start s) =
      (if (write && !e.d) = true then pageWalk la write user
       else if (user && (!e.u || (write && !e.w))) = true then pageFault la true write user
       else pure (e.frame ++ la.extractLsb' 0 12) : M Dword) (Tx.start (s.drawn 1)) := by
  have hlook : tlbLookup la (Tx.start s) = .ok (some (s.tlbEntry la way)) (Tx.start (s.drawn 1)) :=
    (tlbLookup_hit (t := Tx.start s) hd hh).trans (if_neg hg)
  unfold translate
  exact bind_then (look_run _ _) (if_then hp (bind_then hlook rfl))

/-- The state after a completed walk that drew one open value and filled `way`. -/
def State.walked (s : State) (la : Dword) (write : Bool) (way : Nat) : State :=
  ((s.walkMarked la write).drawn 1).setTlbEntry la way (s.walkEntry la write)

/-- The TLB and the count of free values are not memory. -/
theorem walked_byteAt (s : State) (la : Dword) (write : Bool) (way : Nat) (x : Dword) :
    (s.walked la write way).byteAt x = (s.walkMarked la write).byteAt x := by
  unfold State.byteAt State.walked
  rw [setTlbEntry_mem, drawn_mem]

/-- A completed walk where no entry is hit. -/
theorem translate_miss_maps (hp : s.pg = true) (hd : s.tlbDup.contains (tlbTag la) = false) (hh : s.tlbHits la = [])
    (h : s.Maps la write user) :
    translate la write user (Tx.start s) =
      .ok ((s.pte la).extractLsb' 12 20 ++ la.extractLsb' 0 12)
        (Tx.start (s.walked la write ((s.any 0).toNat % Config.tlbWays))) := by
  have hh' : (s.walkMarked la write).tlbHits la = [] := by rw [walkMarked_eq]; exact hh
  have hany : (s.walkMarked la write).any 0 = s.any 0 := by rw [walkMarked_eq]; rfl
  have hfill := tlbFill_miss (s.walkEntry la write) hh'
  rw [hany] at hfill
  exact (translate_walk (t := Tx.start s) hp hd hh).trans (pageWalk_maps h hfill)

/-- A completed walk where a write hits an entry whose D is 0, which stays (20_memory.md R231). -/
theorem translate_clean_maps {way : Nat} (hp : s.pg = true) (hd : s.tlbDup.contains (tlbTag la) = false)
    (hh : s.tlbHits la = [way]) (hg : ¬(s.any 0).getLsbD 0 = true) (hw : write = true)
    (hc : (s.tlbEntry la way).d = false) (h : s.Maps la write user) :
    translate la write user (Tx.start s) =
      .ok ((s.pte la).extractLsb' 12 20 ++ la.extractLsb' 0 12) (Tx.start (s.walked la write way)) := by
  have hh' : ((s.walkMarked la write).drawn 1).tlbHits la = [way] := by rw [walkMarked_eq]; exact hh
  have hfill := tlbFill_hit (s.walkEntry la write) hh'
  rw [← drawn_walkMarked] at hfill
  have hdrawn : (s.drawn 1).Maps la write user := ⟨h.pdeRam, h.pteRam, h.pdePresent, h.ptePresent, h.allowed⟩
  have hwalk := pageWalk_maps hdrawn hfill
  rw [drawn_walkMarked] at hwalk
  exact (translate_stays hp hd hh hg).trans (if_then (by rw [hw, hc]; rfl) hwalk)

/-- The entry that a completed walk leaves in the TLB. -/
theorem walked_tlbEntry (hl : s.tlb.length = 32) {way : Nat} (hway : way < Config.tlbWays) :
    (s.walked la write way).tlbEntry la way = s.walkEntry la write := by
  have hl' : ((s.walkMarked la write).drawn 1).tlb.length = 32 := by rw [walkMarked_eq]; exact hl
  rw [State.walked, tlbEntry_setTlbEntry, hl', if_pos ⟨rfl, tlbEntry_index_lt la hway⟩]

/-- What the completed walk leaves, field by field: the marks, the frame of the state, and the entry in the TLB. -/
theorem walked_leaves (hm : Memory.wf s.mem = true) (hl : s.tlb.length = 32) (h : s.Maps la write user)
    (hne : s.pdeAt la ≠ s.pteAt la) {way : Nat} (hway : way < Config.tlbWays) :
    let t := s.walked la write way
    t.byteAt (s.pdeAt la) = s.byteAt (s.pdeAt la) ||| 0x20 ∧
    t.byteAt (s.pteAt la) = s.byteAt (s.pteAt la) ||| (if write then 0x60 else 0x20) ∧
    (∀ pa, pa ≠ s.pdeAt la → pa ≠ s.pteAt la → t.byteAt pa = s.byteAt pa) ∧
    t.gprs = s.gprs ∧ t.segs = s.segs ∧ t.eflags = s.eflags ∧ t.ioLog = s.ioLog ∧ t.freeCtr = s.freeCtr + 1 ∧
    t.tlbEntry la way = s.walkEntry la write := by
  have hbyte (x : Dword) := (walked_byteAt s la write way x).trans (walkMarked_byteAt hm h hne x)
  refine ⟨?_, ?_, fun pa hpde hpte => ?_, ?_, ?_, ?_, ?_, ?_, walked_tlbEntry hl hway⟩
  · rw [hbyte, if_neg hne, if_pos rfl]
  · rw [hbyte, if_pos rfl]
  · rw [hbyte, if_neg hpte, if_neg hpde]
  all_goals
    rw [State.walked, walkMarked_eq]
    rfl

/-- A hit on an entry that forbids the access, and stays (20_memory.md R231). -/
theorem translate_hit_forbidden {way : Nat} (hp : s.pg = true) (hd : s.tlbDup.contains (tlbTag la) = false)
    (hh : s.tlbHits la = [way]) (hg : ¬(s.any 0).getLsbD 0 = true)
    (hw : write = true → (s.tlbEntry la way).d = true) (hu : user = true)
    (hf : (s.tlbEntry la way).u = false ∨ (write = true ∧ (s.tlbEntry la way).w = false)) :
    translate la write user (Tx.start s) = (pageFault la true write user : M Dword) (Tx.start (s.drawn 1)) := by
  have hclean : ¬(write && !(s.tlbEntry la way).d) = true := by simpa using hw
  have hforbid : (user && (!(s.tlbEntry la way).u || (write && !(s.tlbEntry la way).w))) = true := by
    simpa [hu] using hf
  exact (translate_stays hp hd hh hg).trans (if_else hclean (if_then hforbid rfl))

/-- A hit on an entry that allows the access, and stays. -/
theorem translate_hit_allowed {way : Nat} (hp : s.pg = true) (hd : s.tlbDup.contains (tlbTag la) = false)
    (hh : s.tlbHits la = [way]) (hg : ¬(s.any 0).getLsbD 0 = true)
    (hw : write = true → (s.tlbEntry la way).d = true)
    (hu : user = true → (s.tlbEntry la way).u = true ∧ (write = true → (s.tlbEntry la way).w = true)) :
    translate la write user (Tx.start s) =
      .ok ((s.tlbEntry la way).frame ++ la.extractLsb' 0 12) (Tx.start (s.drawn 1)) := by
  have hclean : ¬(write && !(s.tlbEntry la way).d) = true := by simpa using hw
  have hallow : ¬(user && (!(s.tlbEntry la way).u || (write && !(s.tlbEntry la way).w))) = true := by simpa using hu
  exact (translate_stays hp hd hh hg).trans (if_else hclean (if_else hallow rfl))

end

/-! ## The obligations about translation -/

/-- Settles O14: where nothing is hit, and where a write hits an entry that stays with D = 0, the walk completes; a
hit that vanishes leaves a state that hits nothing; another one decides by itself. -/
theorem pageTablesTranslate : Obligations.PageTablesTranslate := by
  intro s la write user hp hd
  refine ⟨fun hm hl hr hr' hne hpde hpte hf => ?_, fun way hh hw hu => ?_⟩
  · have hmaps : s.Maps la write user := ⟨hr, hr', hpde, hpte, hf⟩
    refine ⟨fun hh => ?_, fun way hh hw hc => ?_⟩
    · exact ⟨_, translate_miss_maps hp hd hh hmaps, walked_leaves hm hl hmaps hne (Nat.mod_lt _ (by decide))⟩
    · have hway : way < Config.tlbWays := (mem_tlbHits.mp (hh ▸ List.mem_singleton_self way)).1
      by_cases hg : (s.any 0).getLsbD 0 = true
      · rw [if_pos hg]
        exact translate_vanished hp hd hh hg
      · rw [if_neg hg]
        exact ⟨_, translate_clean_maps hp hd hh hg hw hc hmaps, walked_leaves hm hl hmaps hne hway⟩
  · by_cases hg : (s.any 0).getLsbD 0 = true
    · rw [if_pos hg]
      exact translate_vanished hp hd hh hg
    · rw [if_neg hg]
      exact translate_hit_allowed hp hd hh hg hw hu

/-- Settles O15: the walk faults at the level that maps nothing, or on protection; a hit faults on the cached
protection. -/
theorem pageFaultCodes : Obligations.PageFaultCodes := by
  intro s la write user hp hd
  refine ⟨fun hh hr => ?_, fun way hh hw hu hf => ?_⟩
  · have hwalk : translate la write user (Tx.start s) = pageWalk la write user (Tx.start s) := translate_walk hp hd hh
    refine ⟨fun hpde => ?_, fun hpde hr' hpte => ?_, fun hpde hr' hpte hf => ?_⟩
    · exact hwalk.trans ((pageWalk_no_table hr hpde).trans (pageFault_run ..))
    · exact hwalk.trans ((pageWalk_no_page hr hpde hr' hpte).trans (pageFault_run ..))
    · exact hwalk.trans ((pageWalk_forbidden hr hpde hr' hpte hf).trans (pageFault_run ..))
  · by_cases hg : (s.any 0).getLsbD 0 = true
    · rw [if_pos hg]
      exact translate_vanished hp hd hh hg
    · rw [if_neg hg]
      exact (translate_hit_forbidden hp hd hh hg hw hu hf).trans (pageFault_run ..)

end Sys2Proof.Machine
end

section
/-! PROOFS. The decoder reads back what the encoder writes: what each reader of the decoder does on the bytes of one
operand, the rule for the operand that a modR/M byte begins, one lemma per operand string of the maps, and the
obligations about encodings (O1, O2). -/

namespace Sys2Proof

variable {α β : Type} {c : DecodeCtx}

/-! ## Readers -/

/-- The reader takes exactly the bytes `bs`, whatever follows them, and answers `a`. -/
def Reads (p : P α) (bs : List Byte) (a : α) : Prop := ∀ rest : List Byte, p.run (bs ++ rest) = .ok (a, rest)

theorem Reads.pure (a : α) : Reads (Pure.pure a) [] a := fun _ => rfl

theorem Reads.next (b : Byte) : Reads Sys2Proof.next [b] b := fun _ => rfl

/-- One reader after another takes the bytes of both. -/
theorem Reads.bind {p : P α} {f : α → P β} {xs ys : List Byte} {a : α} {b : β} (hp : Reads p xs a)
    (hf : Reads (f a) ys b) : Reads (p >>= f) (xs ++ ys) b := fun rest => by
  rw [StateT.run_bind, List.append_assoc, hp]
  exact hf rest

/-- A function of what is read takes the same bytes. -/
theorem Reads.map {p : P α} {bs : List Byte} {a : α} (hp : Reads p bs a) (f : α → β) :
    Reads (p >>= fun x => Pure.pure (f x)) bs (f a) := by
  simpa using hp.bind (f := fun x => Pure.pure (f x)) (.pure (f a))

/-- A reader that begins with one byte. -/
theorem Reads.cons {f : Byte → P α} {b : Byte} {bs : List Byte} {a : α} (h : Reads (f b) bs a) :
    Reads (Sys2Proof.next >>= f) (b :: bs) a := (Reads.next b).bind h

/-! ## Numbers of registers and bases -/

@[simp] theorem Gpr.ofNum_num (r : Gpr) : Gpr.ofNum r.num = r := by cases r <;> rfl
@[simp] theorem Reg8.ofNum_num (r : Reg8) : Reg8.ofNum r.num = r := by cases r <;> rfl
@[simp] theorem Sreg.ofNum_num (r : Sreg) : Sreg.ofNum r.num = some r := by cases r <;> rfl
@[simp] theorem Base16.ofNum_num (b : Base16) : Base16.ofNum b.num = b := by cases b <;> rfl

/-! ## The fields of a modR/M or SIB byte -/

@[simp] theorem modField_modrmByte (md : BitVec 2) (reg rm : BitVec 3) : modField (modrmByte md reg rm) = md := by
  revert md reg rm; decide
@[simp] theorem regField_modrmByte (md : BitVec 2) (reg rm : BitVec 3) : regField (modrmByte md reg rm) = reg := by
  revert md reg rm; decide
@[simp] theorem rmField_modrmByte (md : BitVec 2) (reg rm : BitVec 3) : rmField (modrmByte md reg rm) = rm := by
  revert md reg rm; decide

/-! ## Immediates, displacements and offsets -/

theorem nextW_reads (w : Word) : Reads nextW (encW w) w := by
  have h := (Reads.next (w.extractLsb' 8 8)).map fun hi => hi ++ w.extractLsb' 0 8
  rw [BitVec.extractLsb'_append_extractLsb'] at h
  exact .cons h

theorem nextD_reads (d : Dword) : Reads nextD (encD d) d := by
  have h := (nextW_reads (d.extractLsb' 16 16)).map fun hi => hi ++ d.extractLsb' 0 16
  rw [BitVec.extractLsb'_append_extractLsb'] at h
  exact (nextW_reads (d.extractLsb' 0 16)).bind h

/-- A value of the size in force that its encoding holds (30_encoding.md R335, R337, R338). -/
theorem nextV_reads {wide : Bool} {v : Dword} (h : fits wide v = true) : Reads (nextV wide) (encV wide v) v := by
  cases wide with
  | true => exact nextD_reads v
  | false =>
    have hlt : v.toNat < 65536 := by simpa [fits] using h
    have hv : (v.setWidth 16).setWidth 32 = v := by
      apply BitVec.eq_of_toNat_eq
      simp only [BitVec.toNat_setWidth]
      omega
    have hr := (nextW_reads (v.setWidth 16)).map (BitVec.setWidth 32)
    rwa [hv] at hr

theorem disp16_reads (d : Disp16) : Reads (disp16 d.md) d.enc d := by
  cases d with
  | none => exact .pure _
  | d8 b => exact (Reads.next b).map _
  | d16 w => exact (nextW_reads w).map _

theorem disp32_reads (d : Disp32) : Reads (disp32 d.md) d.enc d := by
  cases d with
  | none => exact .pure _
  | d8 b => exact (Reads.next b).map _
  | d32 w => exact (nextD_reads w).map _

theorem Disp16.md_ne_three (d : Disp16) : d.md ≠ 3 := by cases d <;> simp [Disp16.md]
theorem Disp32.md_ne_three (d : Disp32) : d.md ≠ 3 := by cases d <;> simp [Disp32.md]
@[simp] theorem Disp16.md_eq_zero_iff (d : Disp16) : d.md = 0#2 ↔ d = .none := by cases d <;> simp [Disp16.md]
@[simp] theorem Disp32.md_eq_zero_iff (d : Disp32) : d.md = 0#2 ↔ d = .none := by cases d <;> simp [Disp32.md]

/-! ## Memory operands -/

@[simp] theorem Base16.num_eq_six_iff (b : Base16) : b.num = 6#3 ↔ b = .bp := by cases b <;> simp [Base16.num]
@[simp] theorem Gpr.num_eq_four_iff (r : Gpr) : r.num = 4#3 ↔ r = .esp := by cases r <;> simp [Gpr.num]
@[simp] theorem Gpr.num_eq_five_iff (r : Gpr) : r.num = 5#3 ↔ r = .ebp := by cases r <;> simp [Gpr.num]

theorem mem16_direct_reads (reg : BitVec 3) (d : Word) :
    Reads (mem16 (modrmByte 0 reg 6)) (encW d) (.direct d) := by
  unfold mem16
  rw [if_pos (by simp)]
  exact (nextW_reads d).map _

/-- `[BP]` without displacement is excluded: its bytes would be the direct form (30_encoding.md R323). -/
theorem mem16_based_reads (reg : BitVec 3) {b : Base16} {d : Disp16} (h : (Mem16.based b d).wf = true) :
    Reads (mem16 (modrmByte d.md reg b.num)) d.enc (.based b d) := by
  have hform : d = .none → b ≠ .bp := by simpa [Mem16.wf, imp_iff_not_or, or_comm] using h
  unfold mem16
  rw [if_neg (by simpa using hform)]
  simpa using (disp16_reads d).map (Mem16.based b)

theorem mem32_direct_reads (reg : BitVec 3) (d : Dword) :
    Reads (mem32 (modrmByte 0 reg 5)) (encD d) (.direct d) := by
  unfold mem32
  rw [if_neg (by simp), if_pos (by simp)]
  exact (nextD_reads d).map _

/-- ESP as base needs a SIB byte, EBP a displacement (30_encoding.md R321). -/
theorem mem32_based_reads (reg : BitVec 3) {r : Gpr} {d : Disp32} (h : (Mem32.based r d).wf = true) :
    Reads (mem32 (modrmByte d.md reg r.num)) d.enc (.based r d) := by
  obtain ⟨hsp, hbp⟩ : r ≠ .esp ∧ (d = .none → r ≠ .ebp) := by
    simpa [Mem32.wf, imp_iff_not_or, or_comm] using h
  unfold mem32
  rw [if_neg (by simpa using hsp), if_neg (by simpa using hbp)]
  simpa using (disp32_reads d).map (Mem32.based r)

theorem mem32_sib_reads (reg : BitVec 3) {ss : BitVec 2} {idx base : Gpr} {d : Disp32}
    (h : (Mem32.sib ss idx base d).wf = true) :
    Reads (mem32 (modrmByte d.md reg 4)) (modrmByte ss idx.num base.num :: d.enc) (.sib ss idx base d) := by
  have hbp : base = .ebp → d ≠ .none := by simpa [Mem32.wf, imp_iff_not_or] using h
  unfold mem32
  rw [if_pos (by simp)]
  refine .cons ?_
  rw [if_neg (by simpa using hbp)]
  simpa using (disp32_reads d).map (Mem32.sib ss idx base)

theorem mem32_sibNoBase_reads (reg : BitVec 3) (ss : BitVec 2) (idx : Gpr) (d : Dword) :
    Reads (mem32 (modrmByte 0 reg 4)) (modrmByte ss idx.num 5 :: encD d) (.sibNoBase ss idx d) := by
  unfold mem32
  rw [if_pos (by simp)]
  refine .cons ?_
  rw [if_pos (by simp)]
  simpa using (nextD_reads d).map (Mem32.sibNoBase ss idx)

theorem memOp_reads_m16 {b : Byte} {bs : List Byte} {m : Mem16} (ha : c.a32 = false) (h : Reads (mem16 b) bs m) :
    Reads (memOp c b) bs (.m16 m) := by
  unfold memOp
  rw [ha]
  exact h.map _

theorem memOp_reads_m32 {b : Byte} {bs : List Byte} {m : Mem32} (ha : c.a32 = true) (h : Reads (mem32 b) bs m) :
    Reads (memOp c b) bs (.m32 m) := by
  unfold memOp
  rw [ha]
  exact h.map _

/-- The bytes of an operand are a modR/M byte with the given `reg` field, and bytes that `p`, given that byte, reads as
the operand. -/
def ModrmReads (p : Byte → P α) (reg : BitVec 3) (bs : List Byte) (a : α) : Prop :=
  ∃ b tail, bs = b :: tail ∧ regField b = reg ∧ Reads (p b) tail a

/-- Every form of a memory operand is read back, and its `mod` is no register's. -/
theorem Mem.enc_cons {m : Mem} (reg : BitVec 3) (h : m.wf c.a32 = true) :
    ∃ b tail, m.enc reg = b :: tail ∧ regField b = reg ∧ modField b ≠ 3 ∧ Reads (memOp c b) tail m := by
  cases m with
  | m16 m =>
    obtain ⟨ha, hm⟩ : c.a32 = false ∧ m.wf = true := by simpa [Mem.wf] using h
    cases m with
    | direct d => exact ⟨_, _, rfl, by simp, by simp, memOp_reads_m16 ha (mem16_direct_reads reg d)⟩
    | based b d =>
      exact ⟨_, _, rfl, by simp, by simpa using d.md_ne_three, memOp_reads_m16 ha (mem16_based_reads reg hm)⟩
  | m32 m =>
    obtain ⟨ha, hm⟩ : c.a32 = true ∧ m.wf = true := by simpa [Mem.wf] using h
    cases m with
    | direct d => exact ⟨_, _, rfl, by simp, by simp, memOp_reads_m32 ha (mem32_direct_reads reg d)⟩
    | based r d =>
      exact ⟨_, _, rfl, by simp, by simpa using d.md_ne_three, memOp_reads_m32 ha (mem32_based_reads reg hm)⟩
    | sib ss idx base d =>
      exact ⟨_, _, rfl, by simp, by simpa using d.md_ne_three, memOp_reads_m32 ha (mem32_sib_reads reg hm)⟩
    | sibNoBase ss idx d =>
      exact ⟨_, _, rfl, by simp, by simp, memOp_reads_m32 ha (mem32_sibNoBase_reads reg ss idx d)⟩

theorem opM_reads {m : Mem} (reg : BitVec 3) (h : m.wf c.a32 = true) : ModrmReads (opM c) reg (m.enc reg) m := by
  obtain ⟨b, tail, he, hr, hm, ht⟩ := Mem.enc_cons reg h
  refine ⟨b, tail, he, hr, ?_⟩
  unfold opM
  rwa [if_neg hm]

theorem opEv_reads {e : RM Gpr} (reg : BitVec 3) (h : e.wf c.a32 = true) :
    ModrmReads (opEv c) reg (e.enc reg) e := by
  cases e with
  | reg r => exact ⟨_, _, rfl, by simp, by simpa [opEv] using .pure _⟩
  | mem m =>
    obtain ⟨b, tail, he, hr, hm, ht⟩ := Mem.enc_cons reg h
    refine ⟨b, tail, he, hr, ?_⟩
    unfold opEv
    rw [if_neg hm]
    exact ht.map _

theorem opEb_reads {e : RM Reg8} (reg : BitVec 3) (h : e.wf c.a32 = true) :
    ModrmReads (opEb c) reg (e.enc8 reg) e := by
  cases e with
  | reg r => exact ⟨_, _, rfl, by simp, by simpa [opEb] using .pure _⟩
  | mem m =>
    obtain ⟨b, tail, he, hr, hm, ht⟩ := Mem.enc_cons reg h
    refine ⟨b, tail, he, hr, ?_⟩
    unfold opEb
    rw [if_neg hm]
    exact ht.map _

/-! ## The operand strings of the maps (30_encoding.md R340)

One lemma per string: the bytes the encoder writes for its operands are read as the constructor `k` of these operands.
A string that a group of instructions uses takes the reader `f` of the whole group. -/

/-- An instruction whose last operand the modR/M byte begins. The reader `f` of its opcode need only do the right thing
on a byte with the instruction's `reg` field. -/
theorem ModrmReads.reads {p : Byte → P α} {reg : BitVec 3} {bs : List Byte} {a : α} {f : Byte → P Instr}
    {k : α → Instr} (h : ModrmReads p reg bs a)
    (hf : ∀ b, regField b = reg → f b = p b >>= fun x => pure (k x)) : Reads (withModrm f) bs (k a) := by
  obtain ⟨b, tail, rfl, hr, ht⟩ := h
  refine .cons ?_
  rw [hf b hr]
  exact ht.map k

/-- An instruction with an immediate after the operand that the modR/M byte begins. -/
theorem ModrmReads.reads_then {p : Byte → P α} {q : P β} {reg : BitVec 3} {bs ys : List Byte} {a : α} {y : β}
    {f : Byte → P Instr} {k : α → β → Instr} (h : ModrmReads p reg bs a) (hq : Reads q ys y)
    (hf : ∀ b, regField b = reg → f b = p b >>= fun x => q >>= fun v => pure (k x v)) :
    Reads (withModrm f) (bs ++ ys) (k a y) := by
  obtain ⟨b, tail, rfl, hr, ht⟩ := h
  refine .cons ?_
  rw [hf b hr]
  exact ht.bind (hq.map (k a))

section
variable {f : Byte → P Instr} {reg n : BitVec 3} {e8 : RM Reg8} {e : RM Gpr} {m : Mem} {g8 : Reg8} {g : Gpr}
  {sr : Sreg} {ib : Byte} {iw : Word} {iv : Dword}

theorem shEb_reads {k : RM Reg8 → Instr} (h : e8.wf c.a32 = true)
    (hf : ∀ b, regField b = reg → f b = shEb c b k) : Reads (withModrm f) (e8.enc8 reg) (k e8) :=
  (opEb_reads reg h).reads hf

theorem shEv_reads {k : RM Gpr → Instr} (h : e.wf c.a32 = true)
    (hf : ∀ b, regField b = reg → f b = shEv c b k) : Reads (withModrm f) (e.enc reg) (k e) :=
  (opEv_reads reg h).reads hf

theorem shM_reads {k : Mem → Instr} (h : m.wf c.a32 = true)
    (hf : ∀ b, regField b = reg → f b = shMs c b k) : Reads (withModrm f) (m.enc reg) (k m) :=
  (opM_reads reg h).reads hf

theorem shEbIb_reads {k : RM Reg8 → Byte → Instr} (h : e8.wf c.a32 = true)
    (hf : ∀ b, regField b = reg → f b = shEbIb c b k) : Reads (withModrm f) (e8.enc8 reg ++ [ib]) (k e8 ib) :=
  (opEb_reads reg h).reads_then (.next ib) hf

theorem shEvIb_reads {k : RM Gpr → Byte → Instr} (h : e.wf c.a32 = true)
    (hf : ∀ b, regField b = reg → f b = shEvIb c b k) : Reads (withModrm f) (e.enc reg ++ [ib]) (k e ib) :=
  (opEv_reads reg h).reads_then (.next ib) hf

theorem shEvIv_reads {k : RM Gpr → Dword → Instr} (h : (e.wf c.a32 && fits c.o32 iv) = true)
    (hf : ∀ b, regField b = reg → f b = shEvIv c b k) :
    Reads (withModrm f) (e.enc reg ++ encV c.o32 iv) (k e iv) := by
  obtain ⟨he, hi⟩ := Bool.and_eq_true_iff.mp h
  exact (opEv_reads reg he).reads_then (nextV_reads hi) hf

theorem shEbGb_reads {k : RM Reg8 → Reg8 → Instr} (h : e8.wf c.a32 = true) :
    Reads (withModrm fun b => shEbGb c b k) (e8.enc8 g8.num) (k e8 g8) :=
  (opEb_reads g8.num h).reads (k := fun x => k x g8) fun b hr => by simp [shEbGb, hr]

theorem shEvGv_reads {k : RM Gpr → Gpr → Instr} (h : e.wf c.a32 = true) :
    Reads (withModrm fun b => shEvGv c b k) (e.enc g.num) (k e g) :=
  (opEv_reads g.num h).reads (k := fun x => k x g) fun b hr => by simp [shEvGv, hr]

theorem shGbEb_reads {k : Reg8 → RM Reg8 → Instr} (h : e8.wf c.a32 = true) :
    Reads (withModrm fun b => shGbEb c b k) (e8.enc8 g8.num) (k g8 e8) :=
  (opEb_reads g8.num h).reads fun b hr => by simp [shGbEb, hr]

theorem shGvEv_reads {k : Gpr → RM Gpr → Instr} (h : e.wf c.a32 = true) :
    Reads (withModrm fun b => shGvEv c b k) (e.enc g.num) (k g e) :=
  (opEv_reads g.num h).reads fun b hr => by simp [shGvEv, hr]

theorem shGvEb_reads {k : Gpr → RM Reg8 → Instr} (h : e8.wf c.a32 = true) :
    Reads (withModrm fun b => shGvEb c b k) (e8.enc8 g.num) (k g e8) :=
  (opEb_reads g.num h).reads fun b hr => by simp [shGvEb, hr]

theorem shGvM_reads {k : Gpr → Mem → Instr} (h : m.wf c.a32 = true) :
    Reads (withModrm fun b => shGvM c b k) (m.enc g.num) (k g m) :=
  (opM_reads g.num h).reads fun b hr => by simp [shGvM, hr]

theorem shEvGvIb_reads {k : RM Gpr → Gpr → Byte → Instr} (h : e.wf c.a32 = true) :
    Reads (withModrm fun b => shEvGvIb c b k) (e.enc g.num ++ [ib]) (k e g ib) :=
  (opEv_reads g.num h).reads_then (f := fun b => shEvGvIb c b k) (k := fun x => k x g) (.next ib) fun b hr => by
    simp [shEvGvIb, hr]

theorem shGvEvIb_reads {k : Gpr → RM Gpr → Byte → Instr} (h : e.wf c.a32 = true) :
    Reads (withModrm fun b => shGvEvIb c b k) (e.enc g.num ++ [ib]) (k g e ib) :=
  (opEv_reads g.num h).reads_then (f := fun b => shGvEvIb c b k) (k := k g) (.next ib) fun b hr => by
    simp [shGvEvIb, hr]

theorem shGvEvIv_reads {k : Gpr → RM Gpr → Dword → Instr} (h : (e.wf c.a32 && fits c.o32 iv) = true) :
    Reads (withModrm fun b => shGvEvIv c b k) (e.enc g.num ++ encV c.o32 iv) (k g e iv) := by
  obtain ⟨he, hi⟩ := Bool.and_eq_true_iff.mp h
  exact (opEv_reads g.num he).reads_then (f := fun b => shGvEvIv c b k) (k := k g) (nextV_reads hi) fun b hr => by
    simp [shGvEvIv, hr]

theorem shEwSw_reads {k : RM Gpr → Sreg → Instr} (h : e.wf c.a32 = true) :
    Reads (withModrm fun b => shEwSw c b k) (e.enc sr.num) (k e sr) :=
  (opEv_reads sr.num h).reads (k := fun x => k x sr) fun b hr => by simp [shEwSw, hr]

/-- CS is no destination of MOV (30_encoding.md R349). -/
theorem shSwEw_reads {k : Sreg → RM Gpr → Instr} (h : (sr != .cs && e.wf c.a32) = true) :
    Reads (withModrm fun b => shSwEw c b k) (e.enc sr.num) (k sr e) := by
  obtain ⟨hcs, he⟩ : sr ≠ .cs ∧ e.wf c.a32 = true := by simpa using h
  cases sr with
  | cs => exact absurd rfl hcs
  | _ => exact (opEv_reads _ he).reads fun b hr => by simp [shSwEw, hr]

theorem shopE_reads {k : BitVec 3 → RM Gpr → Instr} (h : e.wf c.a32 = true) :
    Reads (withModrm fun b => shopE c b k) (e.enc n) (k n e) :=
  (opEv_reads n h).reads fun b hr => by simp [shopE, hr]

/-- A special register in the `reg` field, moved to a general register (30_encoding.md R351). -/
theorem shRdCd_reads (c : DecodeCtx) {k : Gpr → BitVec 3 → Instr} :
    Reads (withModrm fun b => shRdCd c b k) [modrmByte 3 n g.num] (k g n) :=
  .cons (by simpa [shRdCd] using .pure _)

/-- A special register in the `reg` field, loaded from a general register (30_encoding.md R351). -/
theorem shCdRd_reads (c : DecodeCtx) {k : BitVec 3 → Gpr → Instr} :
    Reads (withModrm fun b => shCdRd c b k) [modrmByte 3 n g.num] (k n g) :=
  .cons (by simpa [shCdRd] using .pure _)

theorem shIb_reads (c : DecodeCtx) {k : Byte → Instr} : Reads (shIb c k) [ib] (k ib) := (Reads.next ib).map k

theorem shIw_reads (c : DecodeCtx) {k : Word → Instr} : Reads (shIw c k) (encW iw) (k iw) := (nextW_reads iw).map k

theorem shIv_reads {k : Dword → Instr} (h : fits c.o32 iv = true) : Reads (shIv c k) (encV c.o32 iv) (k iv) :=
  (nextV_reads h).map k

theorem shOv_reads {k : Dword → Instr} (h : fits c.a32 iv = true) : Reads (shOv c k) (encV c.a32 iv) (k iv) :=
  (nextV_reads h).map k

theorem shAp_reads {k : Dword → Word → Instr} (h : fits c.o32 iv = true) :
    Reads (shAp c k) (encV c.o32 iv ++ encW iw) (k iv iw) :=
  (nextV_reads h).bind ((nextW_reads iw).map (k iv))

theorem shIwIb_reads (c : DecodeCtx) {k : Word → Byte → Instr} :
    Reads (shIwIb c k) (encW iw ++ [ib]) (k iw ib) :=
  (nextW_reads iw).bind ((Reads.next ib).map (k iw))

end

/-! ## Every instruction -/

theorem decodeOne_reads_prefix {b : Byte} {p : Instr} (h : prefixOf b = some p) : Reads (decodeOne c) [b] p :=
  .cons (by simpa [h] using .pure _)

/-- A byte that is none of the prefixes is looked up in the one-byte map (30_encoding.md R345). -/
theorem decodeOne_reads {b : Byte} {bs : List Byte} {i : Instr} (hb : prefixOf b = none)
    (h : Reads (oneByte c b.toNat) bs i) : Reads (decodeOne c) (b :: bs) i :=
  .cons (by simpa [hb] using h)

/-- The byte after 0F is looked up in the two-byte map (30_encoding.md R346). -/
theorem decodeOne_reads_twoByte {b : Byte} {bs : List Byte} {i : Instr} (h : Reads (twoByte c b.toNat) bs i) :
    Reads (decodeOne c) (0x0F :: b :: bs) i :=
  decodeOne_reads rfl (.cons h)

/-- Every well-formed instruction is read back from its encoding: each case names the map its opcode stands in and
the operand string found there. Where an opcode is a group, `hr` gives the `reg` field that selects the instruction. -/
theorem decodeOne_reads_encode {i : Instr} (h : i.wf c = true) : Reads (decodeOne c) (encode c i) i := by
  cases i with
  | pfxES | pfxCS | pfxSS | pfxDS | pfxFS | pfxGS | pfxOpSize | pfxAddrSize | pfxLock | pfxRepne | pfxRep =>
    exact decodeOne_reads_prefix rfl
  | addEbGb | orEbGb | adcEbGb | sbbEbGb | andEbGb | subEbGb | xorEbGb | cmpEbGb | testEbGb | xchgEbGb |
  movEbGb => exact decodeOne_reads rfl (shEbGb_reads h)
  | addEvGv | orEvGv | adcEvGv | sbbEvGv | andEvGv | subEvGv | xorEvGv | cmpEvGv | arplEwGw | testEvGv |
  xchgEvGv | movEvGv => exact decodeOne_reads rfl (shEvGv_reads h)
  | addGbEb | orGbEb | adcGbEb | sbbGbEb | andGbEb | subGbEb | xorGbEb | cmpGbEb | movGbEb =>
    exact decodeOne_reads rfl (shGbEb_reads h)
  | addGvEv | orGvEv | adcGvEv | sbbGvEv | andGvEv | subGvEv | xorGvEv | cmpGvEv | movGvEv =>
    exact decodeOne_reads rfl (shGvEv_reads h)
  | addALIb | orALIb | adcALIb | sbbALIb | andALIb | subALIb | xorALIb | cmpALIb | pushIb | testALIb | intIb |
  aamIb | aadIb | loopneJb | loopeJb | loopJb | jcxzJb | inALIb | inEAXIb | outIbAL | outIbEAX | jmpJb =>
    exact decodeOne_reads rfl (shIb_reads c)
  | addEAXIv | orEAXIv | adcEAXIv | sbbEAXIv | andEAXIv | subEAXIv | xorEAXIv | cmpEAXIv | pushIv | testEAXIv |
  callJv | jmpJv => exact decodeOne_reads rfl (shIv_reads h)
  | xchgEAXRv r =>
    cases r with
    | eax => exact absurd h Bool.false_ne_true
    | _ => exact decodeOne_reads rfl (.pure _)
  | incRv r | decRv r | pushRv r | popRv r => cases r <;> exact decodeOne_reads rfl (.pure _)
  | boundGvMa | leaGvM | lesGvMp | ldsGvMp => exact decodeOne_reads rfl (shGvM_reads h)
  | imulGvEvIv => exact decodeOne_reads rfl (shGvEvIv_reads h)
  | imulGvEvIb => exact decodeOne_reads rfl (shGvEvIb_reads h)
  | jccJb n | movRbIb n => cases n <;> exact decodeOne_reads rfl (shIb_reads c)
  | addEbIb | orEbIb | adcEbIb | sbbEbIb | andEbIb | subEbIb | xorEbIb | cmpEbIb | rolEbIb | rorEbIb | rclEbIb |
  rcrEbIb | shlEbIb | shrEbIb | sarEbIb | movEbIb | testEbIb =>
    exact decodeOne_reads rfl (shEbIb_reads h fun _ hr => by rw [hr]; rfl)
  | addEvIv | orEvIv | adcEvIv | sbbEvIv | andEvIv | subEvIv | xorEvIv | cmpEvIv | movEvIv | testEvIv =>
    exact decodeOne_reads rfl (shEvIv_reads h fun _ hr => by rw [hr]; rfl)
  | addEvIb | orEvIb | adcEvIb | sbbEvIb | andEvIb | subEvIb | xorEvIb | cmpEvIb | rolEvIb | rorEvIb | rclEvIb |
  rcrEvIb | shlEvIb | shrEvIb | sarEvIb =>
    exact decodeOne_reads rfl (shEvIb_reads h fun _ hr => by rw [hr]; rfl)
  | movEwSw => exact decodeOne_reads rfl (shEwSw_reads h)
  | movSwEw => exact decodeOne_reads rfl (shSwEw_reads h)
  | popEv | rolEv1 | rolEvCL | rorEv1 | rorEvCL | rclEv1 | rclEvCL | rcrEv1 | rcrEvCL | shlEv1 | shlEvCL |
  shrEv1 | shrEvCL | sarEv1 | sarEvCL | notEv | negEv | mulEv | imulEv | divEv | idivEv | incEv | decEv |
  callEv | jmpEv | pushEv => exact decodeOne_reads rfl (shEv_reads h fun _ hr => by rw [hr]; rfl)
  | callAp | jmpAp => exact decodeOne_reads rfl (shAp_reads h)
  | movALOb | movEAXOv | movObAL | movOvEAX => exact decodeOne_reads rfl (shOv_reads h)
  | movRvIv r => cases r <;> exact decodeOne_reads rfl (shIv_reads h)
  | retIw | retfIw => exact decodeOne_reads rfl (shIw_reads c)
  | enterIwIb => exact decodeOne_reads rfl (shIwIb_reads c)
  | rolEb1 | rolEbCL | rorEb1 | rorEbCL | rclEb1 | rclEbCL | rcrEb1 | rcrEbCL | shlEb1 | shlEbCL | shrEb1 |
  shrEbCL | sarEb1 | sarEbCL | notEb | negEb | mulEb | imulEb | divEb | idivEb | incEb | decEb =>
    exact decodeOne_reads rfl (shEb_reads h fun _ hr => by rw [hr]; rfl)
  | esc0 | esc1 | esc2 | esc3 | esc4 | esc5 | esc6 | esc7 => exact decodeOne_reads rfl (shopE_reads h)
  | callEp | jmpEp => exact decodeOne_reads rfl (shM_reads h fun _ hr => by rw [hr]; rfl)
  | pushES | popES | pushCS | pushSS | popSS | pushDS | popDS | daa | das | aaa | aas | pusha | popa | insb |
  insv | outsb | outsv | nop | cbw | cwd | wait | pushf | popf | sahf | lahf | movsb | movsv | cmpsb | cmpsv |
  stosb | stosv | lodsb | lodsv | scasb | scasv | ret | leave | retf | int3 | into | iret | xlat | inALDX |
  inEAXDX | outDXAL | outDXEAX | hlt | cmc | clc | stc | cli | sti | cld | std =>
    exact decodeOne_reads rfl (.pure _)
  | sldtEw | strEw | lldtEw | ltrEw | verrEw | verwEw | smswEw | lmswEw =>
    exact decodeOne_reads_twoByte (shEv_reads h fun _ hr => by rw [hr]; rfl)
  | sgdtMs | sidtMs | lgdtMs | lidtMs =>
    exact decodeOne_reads_twoByte (shM_reads h fun _ hr => by rw [hr]; rfl)
  | larGvEw | lslGvEw | imulGvEv | movzxGvEw | bsfGvEv | bsrGvEv | movsxGvEw =>
    exact decodeOne_reads_twoByte (shGvEv_reads h)
  | movRdCd | movRdDd | movRdTd => exact decodeOne_reads_twoByte (shRdCd_reads c)
  | movCdRd | movDdRd | movTdRd => exact decodeOne_reads_twoByte (shCdRd_reads c)
  | jccJv cc => cases cc <;> exact decodeOne_reads_twoByte (shIv_reads h)
  | setccEb cc => cases cc <;> exact decodeOne_reads_twoByte (shEb_reads h fun _ _ => rfl)
  | btEvGv | shldEvGvCL | btsEvGv | shrdEvGvCL | btrEvGv | btcEvGv =>
    exact decodeOne_reads_twoByte (shEvGv_reads h)
  | shldEvGvIb | shrdEvGvIb => exact decodeOne_reads_twoByte (shEvGvIb_reads h)
  | lssGvMp | lfsGvMp | lgsGvMp => exact decodeOne_reads_twoByte (shGvM_reads h)
  | movzxGvEb | movsxGvEb => exact decodeOne_reads_twoByte (shGvEb_reads h)
  | btEvIb | btsEvIb | btrEvIb | btcEvIb =>
    exact decodeOne_reads_twoByte (shEvIb_reads h fun _ hr => by rw [hr]; rfl)
  | clts | pushFS | popFS | pushGS | popGS => exact decodeOne_reads_twoByte (.pure _)

/-! ## The obligations about encodings -/

/-- Settles O2: the decoder takes exactly the bytes the encoder wrote, so what follows them stays. -/
theorem decodeOfEncode : Obligations.DecodeOfEncode := fun _ _ rest h => decodeOne_reads_encode h rest

/-- Settles O1: the decoder is run on each word. -/
theorem decodesWordsOfTheSpec : Obligations.DecodesWordsOfTheSpec :=
  ⟨rfl, rfl, rfl, rfl, rfl, rfl, rfl, rfl⟩

end Sys2Proof
end

section
/-! PROOFS. The prefixes, and LOCK before an instruction that does not take it (O4). -/

namespace Sys2Proof.Machine

/-- Each of the prefixes does nothing but note itself (30_encoding.md R305 to R311). -/
theorem exec_prefix {i : Instr} {f : Ctx → Ctx} (h : prefixNote i = some f) (s : State) :
    exec i s = .next { s with ctx := f s.ctx } := by
  cases i with
  | pfxES | pfxCS | pfxSS | pfxDS | pfxFS | pfxGS | pfxOpSize | pfxAddrSize | pfxLock | pfxRepne | pfxRep =>
    obtain rfl := Option.some.inj h
    rfl
  | _ => exact absurd h (Option.some_ne_none f).symm

/-- Every instruction but the prefixes runs some body under the rule that LOCK is accepted exactly where R308 lists
it. -/
theorem exec_eq_instr {i : Instr} (h : prefixNote i = none) (s : State) :
    ∃ body, exec i s = instr (lockable i) body s := by
  cases i with
  | pfxES | pfxCS | pfxSS | pfxDS | pfxFS | pfxGS | pfxOpSize | pfxAddrSize | pfxLock | pfxRepne | pfxRep =>
    exact absurd h (Option.some_ne_none _)
  | _ => exact ⟨_, rfl⟩

/-- LOCK before an instruction that does not take it is an invalid opcode (30_encoding.md R308). -/
theorem exec_locked {i : Instr} {s : State} (hl : s.ctx.lock = true) (hi : lockable i = false)
    (hp : prefixNote i = none) : exec i s = s.trapped 6 none := by
  obtain ⟨body, hb⟩ := exec_eq_instr hp s
  rw [hb, hi]
  exact instr_lock hl

/-- Settles O4: the prefixes note themselves, and every other instruction begins with the check of LOCK. -/
theorem prefixesAndLock : Obligations.PrefixesAndLock := ⟨fun _ _ s h => exec_prefix h s, fun _ _ => exec_locked⟩

end Sys2Proof.Machine
end

section
/-! PROOFS. Moves, exchanges, conversions and the stack: what each meaning of 40_data_movement.md does where its
operands can be reached, and the obligations about them (O30, O32, O33, O34). -/

namespace Sys2Proof.Machine

variable {s : State}

/-! ## Instructions without LOCK -/

/-- An instruction whose operation succeeds and leaves `u` goes on to the next one. -/
theorem seqInstr_done {lockable : Bool} {body : M Unit} {u b : State} {x : Bool}
    (hl : s.ctx.lock = true → lockable = true) (h : body (Tx.start s) = .ok () ⟨u, b, x⟩) :
    seqInstr lockable body s = .next (s.finish u) := seqInstr_run hl h

/-- An instruction without LOCK that goes on to the next one, and whose operation succeeds. -/
theorem seqInstr_next {lockable : Bool} {body : M Unit} {u b : State} {x : Bool} (hl : s.ctx.lock = false)
    (h : body (Tx.start s) = .ok () ⟨u, b, x⟩) : seqInstr lockable body s = .next (s.finish u) :=
  seqInstr_done (fun hc => absurd (hl.symm.trans hc) Bool.false_ne_true) h

/-- An instruction without LOCK whose operation raises an exception before it changes anything for good. -/
theorem seqInstr_trapped {lockable : Bool} {body : M Unit} {t : Tx} {vec : Byte} {err : Option Word}
    (hl : s.ctx.lock = false) (h : body (Tx.start s) = .error (.raise { vec := vec, err := err }) t)
    (hb : t.base = s) : seqInstr lockable body s = s.trapped vec err :=
  (seqInstr_raise (fun hc => absurd (hl.symm.trans hc) Bool.false_ne_true) h).trans (by rw [hb]; rfl)

/-! ## Moves and exchanges -/

/-- A byte operand is found and written. -/
theorem writeB_run (e : RM Reg8) (v : Byte) (t : Tx) (h : t.cur.ok8 e true = true) :
    (placeB e true >>= fun p => p.write v) t = .ok () { t with cur := t.cur.put8 e v } := by
  refine bind_then (placeB_run e true t h) ((place8_write t.cur e v t h fun _ => rfl).trans ?_)
  cases e <;> rfl

/-- An operand of `w` bits is found and written. -/
theorem writeV_run {w : Nat} (e : RM Gpr) (v : BitVec w) (t : Tx) (h : t.cur.okV w e true = true) :
    (placeV w e true >>= fun p => p.write v) t = .ok () { t with cur := t.cur.putV e v } := by
  refine bind_then (placeV_run w e true t h) ((placeW_write t.cur w e v t h fun _ => rfl).trans ?_)
  cases e <;> rfl

/-- MOV to a byte operand from a source that is only read. -/
theorem movEb_run {e : RM Reg8} {src : M Byte} {b : Byte} {t : Tx} (h : t.cur.ok8 e true = true)
    (hs : src t = .ok b t) : movEb e src t = .ok () { t with cur := t.cur.put8 e b } :=
  bind_then hs (writeB_run e b t h)

/-- MOV to an operand of the operand size from a source that is only read. -/
theorem movEv_run {e : RM Gpr} {src : (w : Nat) → M (BitVec w)} {t : Tx} {b : BitVec t.cur.osz}
    (h : t.cur.okV t.cur.osz e true = true) (hs : src t.cur.osz t = .ok b t) :
    movEv e src t = .ok () { t with cur := t.cur.putV e b } :=
  (withOsz_run _ t).trans (bind_then hs (writeV_run e b t h))

/-- The byte forms of MOV (40_data_movement.md R403). -/
theorem exec_move8 {i : Instr} {dst : RM Reg8} {src : Src8} (hi : move8 i = some (dst, src))
    (hl : s.ctx.lock = false) (hd : s.ok8 dst true = true) (hs : s.okSrc8 src = true) :
    exec i s = .next (s.finish (s.put8 dst (s.src8 src))) := by
  cases i with
  | movEbGb e g => cases hi; exact seqInstr_next hl (movEb_run hd rfl)
  | movGbEb g e => cases hi; exact seqInstr_next hl (movEb_run hd (readB_run e _ hs))
  | movRbIb r ib => cases hi; exact seqInstr_next hl (movEb_run hd rfl)
  | movEbIb e ib => cases hi; exact seqInstr_next hl (movEb_run hd rfl)
  | _ => exact absurd hi (Option.some_ne_none _).symm

/-- The operand-size forms of MOV (40_data_movement.md R403). -/
theorem exec_moveV {i : Instr} {dst : RM Gpr} {src : SrcV} (hi : moveV i = some (dst, src))
    (hl : s.ctx.lock = false) (hd : s.okV s.osz dst true = true) (hs : s.okSrcV s.osz src = true) :
    exec i s = .next (s.finish (s.putV dst (s.srcV s.osz src))) := by
  cases i with
  | movEvGv e g => cases hi; exact seqInstr_next hl (movEv_run hd rfl)
  | movGvEv g e => cases hi; exact seqInstr_next hl (movEv_run hd (readV_run _ e _ hs))
  | movRvIv r iv => cases hi; exact seqInstr_next hl (movEv_run hd rfl)
  | movEvIv e iv => cases hi; exact seqInstr_next hl (movEv_run hd rfl)
  | _ => exact absurd hi (Option.some_ne_none _).symm

/-- XCHG of the place of a byte operand and a byte register: both are read before either is written
(40_data_movement.md R405). -/
theorem swap_place8_run (e : RM Reg8) (g : Reg8) (t : Tx) (h : t.cur.ok8 e true = true) :
    swap 8 (t.cur.place8 e) (.byte g) t =
      .ok () { t with cur := (t.cur.put8 e (t.cur.reg8 g)).setReg8 g (t.cur.get8 e) } := by
  have hread : (Place.byte g).read 8 t = .ok (t.cur.reg8 g) t := by simp [Place.read]
  refine bind_then (place8_read e true t h) ?_
  refine bind_then hread ?_
  refine bind_then (place8_write t.cur e _ t h fun _ => rfl) ?_
  cases e <;> simp [Place.write, State.put8, State.store]

/-- XCHG of the place of an operand of `w` bits and a register. -/
theorem swap_placeW_run (w : Nat) (e : RM Gpr) (g : Gpr) (t : Tx) (h : t.cur.okV w e true = true) :
    swap w (t.cur.placeW w e) (.gpr g) t =
      .ok () { t with cur := (t.cur.putV e (t.cur.gprLow w g)).setGprLow g (t.cur.getV w e) } := by
  refine bind_then (placeW_read w e true t h) ?_
  refine bind_then (look_run (·.gprLow w g) t) ?_
  refine bind_then (placeW_write t.cur w e _ t h fun _ => rfl) ?_
  cases e <;> rfl

/-- Settles O30: each form reads its source, then writes its destination; XCHG reads both operands first. -/
theorem movesAndExchanges : Obligations.MovesAndExchanges := by
  refine ⟨fun _ _ _ _ => exec_move8, fun _ _ _ _ => exec_moveV,
    fun s o hl => ⟨fun h => ?_, fun h => ?_, fun h => ?_, fun h => ?_⟩, fun s e g hl h => ?_, fun s e g hl h => ?_,
    fun s r hl => ?_⟩
  · exact seqInstr_next hl (bind_then (look_run _ _) (bind_then (memRead_run _ o 1 8 _ h) rfl))
  · exact seqInstr_next hl <|
      (withOsz_run _ _).trans (bind_then (look_run _ _) (bind_then (memRead_run _ o _ _ _ h) rfl))
  · exact seqInstr_next hl (bind_then (look_run _ _) (bind_then (look_run _ _) (memWrite_run _ o 1 _ _ h)))
  · exact seqInstr_next hl <|
      (withOsz_run _ _).trans (bind_then (look_run _ _) (bind_then (look_run _ _) (memWrite_run _ o _ _ _ h)))
  · exact seqInstr_done hl (bind_then (placeB_run e true _ h) (swap_place8_run e g _ h))
  · exact seqInstr_done hl ((withOsz_run _ _).trans (bind_then (placeV_run _ e true _ h) (swap_placeW_run _ e g _ h)))
  · exact seqInstr_next hl ((withOsz_run _ _).trans (swap_placeW_run s.osz (.reg .eax) r (Tx.start s) rfl))

/-! ## Pushes -/

/-- The low `w / 8` bytes of a value are those of its low `w` bits. -/
theorem leBytes_setWidth (w : Nat) {n : Nat} (v : BitVec n) : leBytes (w / 8) (v.setWidth w) = leBytes (w / 8) v := by
  rw [leBytes_eq_map, leBytes_eq_map]
  refine List.map_congr_left fun i hi => BitVec.eq_of_getLsbD_eq fun j hj => ?_
  have hi' := List.mem_range.mp hi
  simp [show 8 * i + j < w by omega]

/-- A push takes only the low bytes of its value. -/
theorem pushed_setWidth (w : Nat) {n : Nat} (v : BitVec n) :
    s.pushed (w / 8) (v.setWidth w) = s.pushed (w / 8) v := by
  simp only [State.pushed, State.store, leBytes_setWidth]

/-- PUSH of an operand or an immediate, read before the stack pointer moves (40_data_movement.md R406). -/
theorem exec_pushForm {i : Instr} {src : SrcV} (hi : pushForm i = some src) (hl : s.ctx.lock = false)
    (hs : s.okSrcV s.osz src = true) (hp : s.canPush (s.osz / 8) = true) :
    exec i s = .next (s.finish (s.pushed (s.osz / 8) (s.srcV s.osz src))) := by
  have hpush {w : Nat} (v : BitVec w) := push_run (s.osz / 8) v (Tx.start s) hp
  cases i with
  | pushRv r =>
    cases hi
    exact seqInstr_next hl ((withOsz_run _ _).trans (bind_then (look_run _ _) (hpush _)))
  | pushEv e =>
    cases hi
    exact seqInstr_next hl ((withOsz_run _ _).trans (bind_then (readV_run _ e _ hs) (hpush _)))
  | pushIv iv =>
    cases hi
    rw [State.srcV, pushed_setWidth]
    exact seqInstr_next hl ((withOsz_run _ _).trans (hpush iv))
  | pushIb ib =>
    cases hi
    exact seqInstr_next hl ((withOsz_run _ _).trans (hpush _))
  | _ => exact absurd hi (Option.some_ne_none _).symm

/-- PUSH of a segment register with a 32-bit operand size: the upper half is a free value (40_data_movement.md R407). -/
theorem pushSreg_wide {r : Sreg} (ho : s.o32 = true) (hp : s.canPush 4 = true) :
    pushSreg r (Tx.start s) = .ok ()
      { Tx.afterDraws s 1 with cur := (s.drawn 1).pushed 4 ((s.any 0).setWidth 16 ++ (s.seg r).sel) } :=
  bind_then (look_run _ _) <| bind_then (look_run _ _) <| if_then ho <| bind_then (anySel_run _ _) <|
    push_run 4 _ (Tx.afterDraws s 1) hp

/-- PUSH of a segment register with a 16-bit operand size. -/
theorem pushSreg_narrow {r : Sreg} (ho : s.o32 = false) (hp : s.canPush 2 = true) :
    pushSreg r (Tx.start s) = .ok () { Tx.start s with cur := s.pushed 2 (s.seg r).sel } :=
  bind_then (look_run _ _) <| bind_then (look_run _ _) <| if_else (ne_true_of_eq_false ho) <|
    push_run 2 _ (Tx.start s) hp

/-- PUSH of a segment register runs the same meaning for each of the six. -/
theorem exec_pushSegForm {i : Instr} {r : Sreg} (hi : pushSegForm i = some r) :
    exec i s = seqInstr false (pushSreg r) s := by
  cases i with
  | pushES | pushCS | pushSS | pushDS | pushFS | pushGS => cases hi; rfl
  | _ => exact absurd hi (Option.some_ne_none _).symm

/-- Settles O32: the value is read, then pushed. -/
theorem pushes : Obligations.Pushes := by
  refine ⟨fun _ _ _ => exec_pushForm, fun i r s hi hl hp => ?_, fun s hl => ⟨fun hp => ?_, fun hp => ?_⟩⟩
  · rw [exec_pushSegForm hi]
    unfold State.oszBytes at hp
    cases ho : s.o32 with
    | true => rw [ho, if_pos rfl] at hp; exact seqInstr_next hl (pushSreg_wide ho hp)
    | false => rw [ho, if_neg Bool.false_ne_true] at hp; exact seqInstr_next hl (pushSreg_narrow ho hp)
  · exact seqInstr_next hl (bind_then (look_run _ _) (bind_then (look_run _ _) (push_run _ _ _ hp)))
  · exact seqInstr_next hl (bind_then (look_run _ _) (bind_then (look_run _ _) (pushAll_run _ _ _ hp)))

/-! ## Pops -/

/-- POP to an operand, which is addressed after the stack pointer has moved (40_data_movement.md R408). -/
theorem popEv_run {e : RM Gpr} (hp : s.canPop (s.osz / 8) = true)
    (hd : (s.popped (s.osz / 8)).okV s.osz e true = true) :
    popEv e (Tx.start s) = .ok ()
      { Tx.start s with cur := (s.popped (s.osz / 8)).putV e (s.top (s.osz / 8) s.osz) } :=
  (withOsz_run _ _).trans <| bind_then (pop_run _ _ (Tx.start s) hp) <|
    writeV_run e _ { Tx.start s with cur := s.popped (s.osz / 8) } hd

/-- POP to an operand, in both forms. -/
theorem exec_popForm {i : Instr} {e : RM Gpr} (hi : popForm i = some e) (hl : s.ctx.lock = false)
    (hp : s.canPop (s.osz / 8) = true) (hd : (s.popped (s.osz / 8)).okV s.osz e true = true) :
    exec i s = .next (s.finish ((s.popped (s.osz / 8)).putV e (s.top (s.osz / 8) s.osz))) := by
  cases i with
  | popRv r => cases hi; exact seqInstr_next hl (popEv_run hp hd)
  | popEv e => cases hi; exact seqInstr_next hl (popEv_run hp hd)
  | _ => exact absurd hi (Option.some_ne_none _).symm

/-- POP to a segment register runs the same meaning for each of the five. -/
theorem exec_popSegForm {i : Instr} {r : Sreg} (hi : popSegForm i = some r) :
    exec i s = seqInstr false (popSreg r) s := by
  cases i with
  | popES | popSS | popDS | popFS | popGS => cases hi; rfl
  | _ => exact absurd hi (Option.some_ne_none _).symm

/-- A load of SS holds off events at the next boundary (60_exceptions.md R925). -/
theorem shadowSS_run (r : Sreg) (t : Tx) :
    (if r = .ss then upd fun u => { u with inhibitSS := true } else pure () : M Unit) t =
      .ok () { t with cur := if r = .ss then { t.cur with inhibitSS := true } else t.cur } := by
  rw [ite_run]
  split <;> rfl

/-- The selector at the top of the stack. -/
def State.topSel (s : State) : Word := (s.top s.oszBytes 32).setWidth 16

/-- POP to a segment register whose load succeeds (40_data_movement.md R409). -/
theorem popSreg_run {r : Sreg} (hp : s.canPop s.oszBytes = true)
    (hc : (s.popped s.oszBytes).canLoadSeg r s.topSel = true) :
    let t := (s.popped s.oszBytes).loadedSeg r s.topSel
    ∃ b, popSreg r (Tx.start s) =
      .ok () { cur := if r = .ss then { t with inhibitSS := true } else t, base := b, ext := false } :=
  ⟨_, bind_then (look_run _ _) <| bind_then (pop_run _ _ (Tx.start s) hp) <|
    bind_then (loadSeg_run r _ { Tx.start s with cur := s.popped s.oszBytes } hc) (shadowSS_run r _)⟩

/-- A pop moves the stack pointer alone. -/
theorem popped_eq (s : State) (n : Nat) : ∃ g, s.popped n = { s with gprs := g } := setSp_eq s _

/-- POPF takes the flags that stay from the state before the pop (45_flag_misc.md R735). -/
theorem popfBody_run (hp : s.canPop s.oszBytes = true) :
    popfBody (Tx.start s) = .ok ()
      { Tx.start s with
        cur := { s.popped s.oszBytes with
          eflags := writeFlags s.eflags (s.top s.oszBytes 32) false (if s.pe then some s.cpl else none)
          ctx := { s.ctx with keepRF := true } } } := by
  refine bind_then (look_run _ _) (bind_then (pop_run _ _ (Tx.start s) hp) ?_)
  obtain ⟨g, hg⟩ := popped_eq s s.oszBytes
  rw [show (Tx.start s).cur.popped (Tx.start s).cur.oszBytes = { s with gprs := g } from hg, hg]
  rfl

/-- A slot at the top of the stack that can be reached is read. -/
theorem stackSlot_run {n w i : Nat} {t : Tx} (h : t.cur.canSlot (n * i) n = true) :
    stackSlot n w i t = .ok (t.cur.slot (n * i) n w) t := readStack_run h

/-- POPA reads all slots but the one of the stack pointer, then writes the registers (40_data_movement.md R411). -/
theorem popaBody_run (h : ∀ i ∈ [0, 1, 2, 4, 5, 6, 7], s.canSlot (s.osz / 8 * i) (s.osz / 8) = true) :
    let v (i : Nat) : BitVec s.osz := s.slot (s.osz / 8 * i) (s.osz / 8) s.osz
    popaBody (Tx.start s) = .ok ()
      { Tx.start s with
        cur := (((((((s.setGprLow .edi (v 0)).setGprLow .esi (v 1)).setGprLow .ebp (v 2)).setGprLow .ebx
          (v 4)).setGprLow .edx (v 5)).setGprLow .ecx (v 6)).setGprLow .eax (v 7)).releaseStack
            (8 * (s.osz / 8)) } := by
  have hslot (i : Nat) (hi : i ∈ [0, 1, 2, 4, 5, 6, 7]) := stackSlot_run (w := s.osz) (t := Tx.start s) (h i hi)
  refine (withOsz_run _ _).trans ?_
  refine bind_then (hslot 0 (by decide)) <| bind_then (hslot 1 (by decide)) <| bind_then (hslot 2 (by decide)) <|
    bind_then (hslot 4 (by decide)) <| bind_then (hslot 5 (by decide)) <| bind_then (hslot 6 (by decide)) <|
    bind_then (hslot 7 (by decide)) ?_
  rfl

/-- Settles O33: the pop moves the stack pointer, then the destination is addressed and written. -/
theorem pops : Obligations.Pops := by
  refine ⟨fun _ _ _ => exec_popForm, fun i r s hi hl hp => ?_, fun s hl => ⟨fun hp => ?_, ?_⟩⟩
  · intro sel hc
    obtain ⟨b, hb⟩ := popSreg_run hp hc
    rw [exec_popSegForm hi]
    exact seqInstr_next hl hb
  · exact seqInstr_next hl (popfBody_run hp)
  · intro n off v h
    exact seqInstr_next hl (popaBody_run (List.all_eq_true.mp h))

/-! ## Conversions -/

/-- CBW and CWDE (40_data_movement.md R414). -/
theorem cbwBody_run (t : Tx) :
    cbwBody t = .ok () { t with
      cur := if t.cur.o32 then t.cur.setGpr .eax ((t.cur.gprLow 16 .eax).signExtend 32)
        else t.cur.setGprLow .eax ((t.cur.reg8 .al).signExtend 16) } := by
  refine bind_then (look_run _ t) ?_
  rw [ite_run]
  split <;> rfl

/-- MOVZX and MOVSX, the source being read without any other effect (40_data_movement.md R412, R413). -/
theorem extendBody_run {v : Nat} {g : Gpr} {f : (w : Nat) → BitVec v → BitVec w} {src : M (BitVec v)} {x : BitVec v}
    {t : Tx} (h : src t = .ok x t) :
    withOsz (fun w => src >>= fun x => extendTo w g (f w) x) t =
      .ok () { t with cur := t.cur.setGprLow g (f t.cur.osz x) } :=
  (withOsz_run _ t).trans (bind_then h rfl)

/-- Settles O34: the two opcodes are decoded, and each meaning writes its one register. -/
theorem conversions : Obligations.Conversions := by
  refine ⟨fun c => ⟨decodeOne_reads_encode (i := .cbw) rfl [], decodeOne_reads_encode (i := .cwd) rfl []⟩,
    fun s hl => ⟨fun g e h => ⟨?_, ?_⟩, fun g e h => ⟨?_, ?_⟩, ?_, ?_, fun g m => ?_, fun h => ?_⟩⟩
  · exact seqInstr_next hl (extendBody_run (f := fun w x => x.setWidth w) (readB_run e _ h))
  · exact seqInstr_next hl (extendBody_run (f := fun w x => x.signExtend w) (readB_run e _ h))
  · exact seqInstr_next hl (extendBody_run (f := fun w x => x.setWidth w) (readV_run 16 e _ h))
  · exact seqInstr_next hl (extendBody_run (f := fun w x => x.signExtend w) (readV_run 16 e _ h))
  · exact seqInstr_next hl (cbwBody_run _)
  · exact seqInstr_next hl (withOsz_run _ _)
  · exact seqInstr_next hl (withOsz_run _ _)
  · exact seqInstr_next hl <|
      bind_then (look_run _ _) (bind_then (look_run _ _) (bind_then (memRead_run _ _ 1 8 _ h) rfl))

end Sys2Proof.Machine
end

section
/-! PROOFS. Loads of the segment registers, where they succeed and where they fault (O31). -/

namespace Sys2Proof.Machine

variable {s : State}

/-! ## The fault of a load -/

section

variable {sel : Word} {x : Byte × Word} {t : Tx}

/-- A check that fails stops with its own exception, or it holds and what follows stops. -/
theorem need_or_later {β : Type} {ok : Bool} {act : M Unit} {f : Unit → M β} {e : Stop}
    (hstop : ok = false → act t = .error e t) (hlater : ok = true → f () t = .error e t) :
    (need ok act >>= f) t = .error e t := by
  cases ok with
  | false => exact bind_run_error (hstop rfl)
  | true => exact hlater rfl

/-- The exception of a check is the one `segFault` gives where that check is the first to fail. -/
theorem raiseSel_fault {α : Type} {o : Option (Byte × Word)} {v : Byte} (hx : t.ext = false) (hf : o = some x)
    (hv : o = some (v, selCode sel)) :
    (raiseSel v sel : M α) t = .error (.raise { vec := x.1, err := some x.2 }) t := by
  obtain rfl := Option.some.inj (hf.symm.trans hv)
  exact raiseSel_run v sel hx

/-- A load of SS that a check refuses (20_memory.md R181). -/
theorem loadSS_fault (hx : t.ext = false) (hr : t.cur.tableRam sel = true) (hf : t.cur.segFault .ss sel = some x) :
    loadSS sel t = .error (.raise { vec := x.1, err := some x.2 }) t := by
  cases hn : isNull sel with
  | true =>
    have hnull : t.cur.segFault .ss sel = some (13, 0) := by simp [State.segFault, hn]
    obtain rfl := Option.some.inj (hf.symm.trans hnull)
    exact need_stop (by rw [hn]; rfl) (by simp [raiseGP0, hx, bitVal])
  | false =>
    refine bind_then (need_run (by rw [hn]; rfl)) ?_
    cases hd : t.cur.descFor sel with
    | none =>
      have hgp : t.cur.segFault .ss sel = some (13, selCode sel) := by simp [State.segFault, hn, hd]
      exact bind_run_error ((fetchDescOr_none hr hd).trans (raiseSel_fault hx hf hgp))
    | some d =>
      refine bind_then (fetchDescOr_run hd) (bind_then (look_run _ t) ?_)
      refine need_or_later (fun h => raiseSel_fault hx hf ?_) fun hrpl =>
        need_or_later (fun h => raiseSel_fault hx hf ?_) fun hdata =>
        need_or_later (fun h => raiseSel_fault hx hf ?_) fun hdpl =>
        need_or_later (fun h => raiseSel_fault hx hf ?_) fun hp => absurd hf ?_
      case refine_1 => simp [State.segFault, hn, hd, bne, h]
      case refine_2 => simp [State.segFault, hn, hd, bne, h]
      case refine_3 => simp [State.segFault, hn, hd, bne, h]
      case refine_4 => simp [State.segFault, hn, hd, bne, hrpl, hdata, hdpl, h]
      case refine_5 => simp [State.segFault, hn, hd, bne, hrpl, hdata, hdpl, hp]

/-- The check of the level that `loadDataSeg` makes is the one of `dataDenied` (20_memory.md R180). -/
theorem dataDenied_of_level {d : Desc} {ok : Bool}
    (h : (d.isCode && d.conforming || decide (s.cpl.toNat ≤ d.dpl.toNat ∧ (rpl sel).toNat ≤ d.dpl.toNat)) = ok) :
    s.dataDenied sel d = !ok := by
  rw [← h]
  simp only [State.dataDenied, Bool.not_or, ← decide_not, not_and_or, not_le]

/-- A load of DS, ES, FS or GS that a check refuses (20_memory.md R180). -/
theorem loadDataSeg_fault {r : Sreg} (hss : r ≠ .ss) (hx : t.ext = false) (hr : t.cur.tableRam sel = true)
    (hf : t.cur.segFault r sel = some x) :
    loadDataSeg r sel t = .error (.raise { vec := x.1, err := some x.2 }) t := by
  have hn : ¬isNull sel = true := fun hn => by simp [State.segFault, hn, hss] at hf
  refine if_else hn ?_
  cases hd : t.cur.descFor sel with
  | none =>
    have hgp : t.cur.segFault r sel = some (13, selCode sel) := by simp [State.segFault, hn, hd]
    exact bind_run_error ((fetchDescOr_none hr hd).trans (raiseSel_fault hx hf hgp))
  | some d =>
    refine bind_then (fetchDescOr_run hd) (bind_then (look_run _ t) ?_)
    refine need_or_later (fun h => raiseSel_fault hx hf ?_) fun _ =>
      need_or_later (fun h => raiseSel_fault hx hf ?_) fun hread =>
      need_or_later (fun h => raiseSel_fault hx hf ?_) fun hlevel =>
      need_or_later (fun h => raiseSel_fault hx hf ?_) fun hp => absurd hf ?_
    case refine_1 => simp [State.segFault, hn, hd, hss, Desc.readable, h]
    case refine_2 => simp [State.segFault, hn, hd, hss, h]
    case refine_3 => simp [State.segFault, hn, hd, hss, dataDenied_of_level h]
    case refine_4 => simp [State.segFault, hn, hd, hss, hread, dataDenied_of_level hlevel, h]
    case refine_5 => simp [State.segFault, hn, hd, hss, hread, dataDenied_of_level hlevel, hp]

/-- A load of a segment register in protected mode that a check refuses. -/
theorem loadSeg_fault {r : Sreg} (hpe : t.cur.pe = true) (hx : t.ext = false) (hr : t.cur.tableRam sel = true)
    (hf : t.cur.segFault r sel = some x) :
    loadSeg r sel t = .error (.raise { vec := x.1, err := some x.2 }) t := by
  refine bind_then (look_run _ t) (if_then hpe ?_)
  cases r with
  | ss => exact loadSS_fault hx hr hf
  | es | cs | ds | fs | gs => exact loadDataSeg_fault (by decide) hx hr hf

end

/-! ## MOV -/

/-- A selector is stored in a word operand; a 32-bit register gets an open upper half (40_data_movement.md R404). -/
theorem storeWord_run (e : RM Gpr) (v : Word) (h : s.okV 16 e true = true) :
    ∃ b, storeWord e v (Tx.start s) = .ok () ⟨s.putWord e v, b, false⟩ := by
  cases e with
  | mem m =>
    exact ⟨s, bind_then (look_run _ _) (bind_then (look_run _ _) (memWrite_run _ _ 2 v (Tx.start s) h))⟩
  | reg r =>
    cases ho : s.o32 with
    | true =>
      rw [State.putWord, ho]
      exact ⟨s.drawn 1, bind_then (look_run _ _) (if_then ho (bind_then (anySel_run v _) rfl))⟩
    | false =>
      rw [State.putWord, ho]
      exact ⟨s, bind_then (look_run _ _) (if_else (ne_true_of_eq_false ho) rfl)⟩

/-- MOV to a segment register whose load succeeds; MOV to SS holds off events (40_data_movement.md R404). -/
theorem movSreg_run {sr : Sreg} {e : RM Gpr} (hcs : sr ≠ .cs) (h : s.okV 16 e false = true)
    (hc : s.canLoadSeg sr (s.getV 16 e) = true) :
    let t := s.loadedSeg sr (s.getV 16 e)
    ∃ b, movSreg sr e (Tx.start s) = .ok () ⟨if sr = .ss then { t with inhibitSS := true } else t, b, false⟩ :=
  ⟨_, if_else hcs <| bind_then (readV_run 16 e (Tx.start s) h) <|
    bind_then (loadSeg_run sr _ (Tx.start s) hc) (shadowSS_run sr _)⟩

/-- MOV to a segment register whose load faults. -/
theorem movSreg_fault {sr : Sreg} {e : RM Gpr} {x : Byte × Word} (hcs : sr ≠ .cs) (h : s.okV 16 e false = true)
    (hpe : s.pe = true) (hr : s.tableRam (s.getV 16 e) = true) (hf : s.segFault sr (s.getV 16 e) = some x) :
    movSreg sr e (Tx.start s) = .error (.raise { vec := x.1, err := some x.2 }) (Tx.start s) :=
  if_else hcs <| bind_then (readV_run 16 e (Tx.start s) h) <|
    bind_run_error (loadSeg_fault (t := Tx.start s) hpe rfl hr hf)

/-! ## Far pointers -/

/-- The selector of a far pointer: the word after its offset (40_data_movement.md R418). -/
def State.farSel (s : State) (m : Mem) : Word :=
  s.load (s.effSeg m) (s.effOff m + BitVec.ofNat 32 (s.osz / 8)) 2 16

/-- LDS, LES, LFS, LGS and LSS run the same meaning. -/
theorem exec_loadFarForm {i : Instr} {r : Sreg} {g : Gpr} {m : Mem} (hi : loadFarForm i = some (r, g, m)) :
    exec i s = seqInstr false (loadFar r g m) s := by
  cases i with
  | ldsGvMp | lesGvMp | lfsGvMp | lgsGvMp | lssGvMp => cases hi; rfl
  | _ => exact absurd hi (Option.some_ne_none _).symm

/-- The operand size is at least a byte. -/
theorem eight_le_osz (s : State) : 8 ≤ s.osz := by
  unfold State.osz
  split <;> decide

section

variable {r : Sreg} {g : Gpr} {m : Mem}

/-- A far pointer is loaded: the segment register, then the general register (40_data_movement.md R418). -/
theorem loadFar_run (h : s.reachable (s.effSeg m) (s.effOff m) (s.osz / 8 + 2) false = true)
    (hc : s.canLoadSeg r (s.farSel m) = true) :
    ∃ b, loadFar r g m (Tx.start s) = .ok ()
      ⟨(s.loadedSeg r (s.farSel m)).setGprLow g
        (s.load (s.effSeg m) (s.effOff m) (s.osz / 8) s.osz : BitVec s.osz), b, false⟩ :=
  ⟨_, (withOsz_run _ _).trans <| bind_then (readFar_run _ m (Tx.start s) (eight_le_osz s) h) <|
    bind_then (loadSeg_run r _ (Tx.start s) hc) rfl⟩

/-- A far pointer whose selector may not be loaded. -/
theorem loadFar_fault {x : Byte × Word}
    (h : s.reachable (s.effSeg m) (s.effOff m) (s.osz / 8 + 2) false = true) (hpe : s.pe = true)
    (hr : s.tableRam (s.farSel m) = true) (hf : s.segFault r (s.farSel m) = some x) :
    loadFar r g m (Tx.start s) = .error (.raise { vec := x.1, err := some x.2 }) (Tx.start s) :=
  (withOsz_run _ _).trans <| bind_then (readFar_run _ m (Tx.start s) (eight_le_osz s) h) <|
    bind_run_error (loadSeg_fault (t := Tx.start s) hpe rfl hr hf)

end

/-! ## POP -/

/-- A pop leaves the mode and what a load of a segment register is checked against. -/
theorem popped_segFault (s : State) (n : Nat) (r : Sreg) (sel : Word) :
    (s.popped n).pe = s.pe ∧ (s.popped n).tableRam sel = s.tableRam sel ∧
      (s.popped n).segFault r sel = s.segFault r sel := by
  obtain ⟨g, hg⟩ := popped_eq s n
  rw [hg]
  exact ⟨rfl, rfl, rfl⟩

/-- POP to a segment register whose load faults: the stack pointer moves in the working state alone. -/
theorem popSreg_fault {r : Sreg} {x : Byte × Word} (hp : s.canPop s.oszBytes = true) (hpe : s.pe = true)
    (hr : s.tableRam s.topSel = true) (hf : s.segFault r s.topSel = some x) :
    popSreg r (Tx.start s) =
      .error (.raise { vec := x.1, err := some x.2 }) { Tx.start s with cur := s.popped s.oszBytes } := by
  obtain ⟨hpe', hr', hf'⟩ := popped_segFault s s.oszBytes r s.topSel
  refine bind_then (look_run _ _) (bind_then (pop_run _ _ (Tx.start s) hp) (bind_run_error ?_))
  exact loadSeg_fault (hpe'.trans hpe) rfl (hr'.trans hr) (hf'.trans hf)

/-- Settles O31: each instruction reads its selector, and the load of the segment register decides. -/
theorem segmentLoads : Obligations.SegmentLoads := by
  refine ⟨fun s e sr hl => ⟨fun h => ?_, fun hcs h hc => ?_, ?_, fun vec code hcs h hpe hr hf => ?_⟩,
    fun i r g m s hi hl h => ⟨fun hc => ?_, fun vec code hpe hr hf => ?_⟩,
    fun i r s vec code hi hl hp hpe hr hf => ?_⟩
  · obtain ⟨b, hb⟩ := storeWord_run e (s.seg sr).sel h
    exact seqInstr_next hl (bind_then (look_run _ _) hb)
  · obtain ⟨b, hb⟩ := movSreg_run hcs h hc
    exact seqInstr_next hl hb
  · exact seqInstr_trapped hl (if_then rfl rfl) rfl
  · exact seqInstr_trapped hl (movSreg_fault hcs h hpe hr hf) rfl
  · obtain ⟨b, hb⟩ := loadFar_run (g := g) h hc
    rw [exec_loadFarForm hi]
    exact seqInstr_next hl hb
  · rw [exec_loadFarForm hi]
    exact seqInstr_trapped hl (loadFar_fault h hpe hr hf) rfl
  · rw [exec_popSegForm hi]
    exact seqInstr_trapped hl (popSreg_fault hp hpe hr hf) rfl

end Sys2Proof.Machine
end

section
/-! PROOFS. What the results and the flags of 41_arithmetic.md mean, at every width: sums and differences, one more, one
less and the negative, products, quotients (O17). The meanings of the instructions stand in the next part. -/

namespace Sys2Proof.Machine

/-! ## Sums -/

section

variable {n m : Nat} {a b r : BitVec n} {c : Bool}

theorem bitVal_toNat (hn : 0 < n) (c : Bool) : (bitVal c : BitVec n).toNat = c.toNat := by
  cases c
  · rfl
  · simp [bitVal, hn]

theorem toNat_add_bitVal (hn : 0 < n) (a b : BitVec n) (c : Bool) :
    (a + b + bitVal c).toNat = (a.toNat + b.toNat + c.toNat) % 2 ^ n := by
  rw [BitVec.toNat_add, BitVec.toNat_add, bitVal_toNat hn, Nat.mod_add_mod]

/-- A sum of `n` bits is the exact one, or `2 ^ n` less. -/
theorem toNat_sum_cases (hn : 0 < n) (h : a + b + bitVal c = r) :
    a.toNat + b.toNat + c.toNat = r.toNat ∨ a.toNat + b.toNat + c.toNat = r.toNat + 2 ^ n := by
  have hr : (a.toNat + b.toNat + c.toNat) % 2 ^ n = r.toNat := by rw [← h, toNat_add_bitVal hn]
  have ha := a.isLt
  have hb := b.isLt
  have hc := c.toNat_le
  rcases Nat.lt_or_ge (a.toNat + b.toNat + c.toNat) (2 ^ n) with hlt | hge
  · exact .inl (by rw [← hr, Nat.mod_eq_of_lt hlt])
  · rw [Nat.mod_eq_sub_mod hge, Nat.mod_eq_of_lt (by omega)] at hr
    exact .inr (by omega)

/-- The sign bit says that a value lies in the upper half. -/
theorem msb_iff_half (hm : m * 2 = 2 ^ n) (x : BitVec n) : x.msb = true ↔ m ≤ x.toNat := by
  rw [BitVec.msb_eq_toNat]
  cases n with
  | zero => omega
  | succ k => simp; omega

theorem msb_eq_iff_half (hm : m * 2 = 2 ^ n) (x y : BitVec n) : x.msb = y.msb ↔ (m ≤ x.toNat ↔ m ≤ y.toNat) := by
  rw [Bool.eq_iff_iff, msb_iff_half hm, msb_iff_half hm]

/-- The signed value: the unsigned one in the lower half, `2 ^ n` less in the upper half. -/
theorem toInt_cases (hm : m * 2 = 2 ^ n) (x : BitVec n) :
    x.toNat < m ∧ x.toInt = x.toNat ∨ m ≤ x.toNat ∧ x.toNat < 2 * m ∧ x.toInt = (x.toNat : Int) - 2 * m := by
  have hx := x.isLt
  rw [BitVec.toInt_eq_toNat_cond]
  split <;> omega

/-- A signed sum does not fit where its terms have one sign and the result the other (41_arithmetic.md R450). -/
theorem sum_toInt_ne_iff (hn : 0 < n) (h : a + b + bitVal c = r) :
    r.toInt ≠ a.toInt + b.toInt + c.toNat ↔ a.msb = b.msb ∧ r.msb ≠ a.msb := by
  have hm : 2 ^ (n - 1) * 2 = 2 ^ n := Nat.two_pow_pred_mul_two hn
  have hs := toNat_sum_cases hn h
  have hc := c.toNat_le
  rw [ne_eq r.msb, msb_eq_iff_half hm, msb_eq_iff_half hm]
  have ha := toInt_cases hm a
  have hb := toInt_cases hm b
  have hr := toInt_cases hm r
  generalize 2 ^ (n - 1) = m at *
  omega

theorem two_pow_eq_mul_32 (hn : 4 < n) : ∃ k, 2 ^ n = 32 * k :=
  pow_dvd_pow 2 (show 5 ≤ n from hn)

theorem getLsbD_four (x : BitVec n) : x.getLsbD 4 = decide (x.toNat / 16 % 2 = 1) :=
  Nat.testBit_eq_decide_div_mod_eq

/-- Bit 4 of the exclusive or of two terms and their sum is the carry out of the low four bits
(41_arithmetic.md R450). -/
theorem sum_halfCarry_iff (hn : 4 < n) (h : a + b + bitVal c = r) :
    (a ^^^ b ^^^ r).getLsbD 4 = true ↔ 16 ≤ a.toNat % 16 + b.toNat % 16 + c.toNat := by
  have hs := toNat_sum_cases (by omega) h
  have hc := c.toNat_le
  obtain ⟨k, hk⟩ := two_pow_eq_mul_32 hn
  rw [BitVec.getLsbD_xor, BitVec.getLsbD_xor, Bool.xor_iff_ne, ne_eq, Bool.eq_iff_iff, Bool.xor_iff_ne, ne_eq,
    getLsbD_four, getLsbD_four, getLsbD_four, decide_eq_decide, decide_eq_true_iff]
  omega

/-- A signed difference does not fit where its terms have two signs and the result that of the second
(41_arithmetic.md R450). -/
theorem difference_toInt_ne_iff (hn : 0 < n) (h : r + b + bitVal c = a) :
    r.toInt ≠ a.toInt - b.toInt - c.toNat ↔ a.msb ≠ b.msb ∧ r.msb ≠ a.msb := calc
  _ ↔ a.toInt ≠ r.toInt + b.toInt + c.toNat := by omega
  _ ↔ r.msb = b.msb ∧ a.msb ≠ r.msb := sum_toInt_ne_iff hn h
  _ ↔ a.msb ≠ b.msb ∧ r.msb ≠ a.msb := by grind

/-- Bit 4 of the exclusive or of two terms and their difference is the borrow of the low four bits. -/
theorem difference_halfBorrow_iff (hn : 4 < n) (h : r + b + bitVal c = a) :
    (a ^^^ b ^^^ r).getLsbD 4 = true ↔ a.toNat % 16 < b.toNat % 16 + c.toNat := by
  have hs := toNat_sum_cases (by omega) h
  have hc := c.toNat_le
  obtain ⟨k, hk⟩ := two_pow_eq_mul_32 hn
  have hxor : a ^^^ b ^^^ r = r ^^^ b ^^^ a := by rw [BitVec.xor_comm a b, BitVec.xor_comm, BitVec.xor_assoc]
  rw [hxor, sum_halfCarry_iff hn h]
  omega

/-- A difference is the term that the other terms lack. -/
theorem sub_bitVal_add (a b : BitVec n) (c : Bool) : (a - b - bitVal c) + b + bitVal c = a := by
  rw [BitVec.add_assoc, BitVec.add_comm b, ← BitVec.add_assoc, BitVec.sub_add_cancel, BitVec.sub_add_cancel]

/-- A difference of `n` bits is the exact one modulo `2 ^ n`. -/
theorem toNat_sub_bitVal (hn : 0 < n) (a b : BitVec n) (c : Bool) :
    ((a - b - bitVal c).toNat : Int) = ((a.toNat : Int) - b.toNat - c.toNat) % 2 ^ n := by
  have hs := toNat_sum_cases hn (sub_bitVal_add a b c)
  have hr := (a - b - bitVal c).isLt
  generalize a - b - bitVal c = r at hs hr ⊢
  have hp : (2 : Int) ^ n = (2 ^ n : Nat) := by norm_cast
  rw [hp]
  rcases hs with hs | hs
  · rw [show (a.toNat : Int) - b.toNat - c.toNat = r.toNat by omega]
    exact (Int.emod_eq_of_lt (by omega) (by omega)).symm
  · rw [show (a.toNat : Int) - b.toNat - c.toNat = r.toNat - (2 ^ n : Nat) by omega, Int.sub_emod_right]
    exact (Int.emod_eq_of_lt (by omega) (by omega)).symm

end

/-! ## The status flags of a result -/

/-- `SZP` makes ZF, SF and PF describe the result (41_arithmetic.md R450). -/
theorem szp_describes {n : Nat} (f : Flags) (r : BitVec n) : (f.szp r).describes r := by
  refine ⟨?_, ?_, parity_evenOnes r⟩
  · simp [Flags.szp, BitVec.toNat_eq]
  · simp [Flags.szp, BitVec.msb_eq_toInt]

section

variable {n : Nat} (a b : BitVec n) (c : Bool)

/-- `AddFlags` (41_arithmetic.md R450). -/
theorem addFlags_spec (hn : 0 < n) :
    let r := addFlags a b c
    r.1.toNat = (a.toNat + b.toNat + c.toNat) % 2 ^ n ∧
    (r.2.cf = true ↔ 2 ^ n ≤ a.toNat + b.toNat + c.toNat) ∧
    (r.2.of = true ↔ r.1.toInt ≠ a.toInt + b.toInt + c.toNat) ∧
    (4 < n → (r.2.af = true ↔ 16 ≤ a.toNat % 16 + b.toNat % 16 + c.toNat)) ∧ r.2.describes r.1 := by
  refine ⟨toNat_add_bitVal hn a b c, decide_eq_true_iff, ?_, fun h4 => sum_halfCarry_iff h4 rfl, szp_describes _ _⟩
  exact Iff.trans (by simp [addFlags, Flags.szp]) (sum_toInt_ne_iff hn rfl).symm

/-- `SubFlags` (41_arithmetic.md R450): its flags are those of the sum `r + b + c` that gives back `a`. -/
theorem subFlags_spec (hn : 0 < n) :
    let r := subFlags a b c
    (r.1.toNat : Int) = ((a.toNat : Int) - b.toNat - c.toNat) % 2 ^ n ∧
    (r.2.cf = true ↔ a.toNat < b.toNat + c.toNat) ∧
    (r.2.of = true ↔ r.1.toInt ≠ a.toInt - b.toInt - c.toNat) ∧
    (4 < n → (r.2.af = true ↔ a.toNat % 16 < b.toNat % 16 + c.toNat)) ∧ r.2.describes r.1 := by
  have hsum := sub_bitVal_add a b c
  refine ⟨toNat_sub_bitVal hn a b c, decide_eq_true_iff, ?_, fun h4 => difference_halfBorrow_iff h4 hsum,
    szp_describes _ _⟩
  exact Iff.trans (by simp [subFlags, Flags.szp]) (difference_toInt_ne_iff hn hsum).symm

/-- `LogicFlags` (42_logic_shift_bit.md R500). -/
theorem logicFlags_spec (x : Dword) :
    let f := logicFlags a x
    f.cf = false ∧ f.of = false ∧ f.af = x.getLsbD 4 ∧ f.describes a :=
  ⟨rfl, rfl, rfl, szp_describes _ _⟩

end

/-! ## One more, one less, the negative -/

/-- Only the most negative value has no negative of its width. -/
theorem toInt_neg_ne_iff {n : Nat} (hn : 0 < n) (a : BitVec n) :
    (-a).toInt ≠ 0 - a.toInt - (0 : Nat) ↔ a.toNat = 2 ^ (n - 1) := by
  have hs := toNat_sum_cases (r := 0#n) (c := false) hn (a := -a) (b := a) (by simp [bitVal])
  have hm : 2 ^ (n - 1) * 2 = 2 ^ n := Nat.two_pow_pred_mul_two hn
  have ha := toInt_cases hm a
  have hna := toInt_cases hm (-a)
  simp only [BitVec.toNat_ofNat, Nat.zero_mod, Bool.toNat_false] at hs
  generalize 2 ^ (n - 1) = m at *
  omega

section

variable {n : Nat} (a : BitVec n)

/-- INC adds 1 as a carry (41_arithmetic.md R456). -/
theorem incFlags_spec (old : Flags) (hn : 4 < n) :
    let r := incFlags a old
    r.1.toNat = (a.toNat + 1) % 2 ^ n ∧ r.2.cf = old.cf ∧ (r.2.of = true ↔ a.toNat + 1 = 2 ^ (n - 1)) ∧
      (r.2.af = true ↔ a.toNat % 16 = 15) ∧ r.2.describes r.1 := by
  have hsum : a + 0#n + bitVal true = a + 1#n := by rw [BitVec.add_zero]; rfl
  have hs := toNat_sum_cases (by omega) hsum
  have ha := a.isLt
  have hm : 2 ^ (n - 1) * 2 = 2 ^ n := Nat.two_pow_pred_mul_two (by omega)
  obtain ⟨k, hk⟩ := two_pow_eq_mul_32 hn
  simp only [BitVec.toNat_ofNat, Nat.zero_mod, Bool.toNat_true] at hs
  refine ⟨by simp [incFlags], rfl, decide_eq_true_iff.trans ?_, decide_eq_true_iff.trans ?_, szp_describes _ _⟩
  · omega
  · omega

/-- DEC: the operand is one more than the result (41_arithmetic.md R457). -/
theorem decFlags_spec (old : Flags) (hn : 4 < n) :
    let r := decFlags a old
    r.1.toNat = (a.toNat + (2 ^ n - 1)) % 2 ^ n ∧ r.2.cf = old.cf ∧ (r.2.of = true ↔ a.toNat = 2 ^ (n - 1)) ∧
      (r.2.af = true ↔ a.toNat % 16 = 0) ∧ r.2.describes r.1 := by
  have hsum : (a - 1#n) + 0#n + bitVal true = a := by rw [BitVec.add_zero]; exact BitVec.sub_add_cancel a 1#n
  have hs := toNat_sum_cases (by omega) hsum
  obtain ⟨k, hk⟩ := two_pow_eq_mul_32 hn
  simp only [BitVec.toNat_ofNat, Nat.zero_mod, Bool.toNat_true] at hs
  refine ⟨?_, rfl, decide_eq_true_iff, decide_eq_true_iff.trans ?_, szp_describes _ _⟩
  · rw [decFlags, BitVec.toNat_sub, Nat.add_comm, BitVec.toNat_ofNat, Nat.one_mod_two_pow (by omega)]
  · omega

/-- NEG is a difference from 0 (41_arithmetic.md R458). -/
theorem negFlags_spec (hn : 4 < n) :
    let r := subFlags 0#n a false
    r.1.toNat = (2 ^ n - a.toNat) % 2 ^ n ∧ (r.2.cf = true ↔ a.toNat ≠ 0) ∧
      (r.2.of = true ↔ a.toNat = 2 ^ (n - 1)) ∧ (r.2.af = true ↔ a.toNat % 16 ≠ 0) ∧ r.2.describes r.1 := by
  obtain ⟨-, hcf, hof, haf, hdesc⟩ := subFlags_spec 0#n a false (by omega)
  have hneg : (subFlags 0#n a false).1 = -a := by simp [subFlags, bitVal]
  refine ⟨by rw [hneg, BitVec.toNat_neg], hcf.trans ?_, hof.trans ?_, (haf hn).trans ?_, hdesc⟩
  · simp [Nat.pos_iff_ne_zero]
  · rw [hneg, BitVec.toInt_zero, Bool.toNat_false]
    exact toInt_neg_ne_iff (by omega) a
  · simp [Nat.pos_iff_ne_zero]

end

/-! ## Products -/

section

variable {n : Nat} (a b : BitVec n)

/-- MUL: two values of `n` bits have a product of `n + n` bits (41_arithmetic.md R459). -/
theorem mulU_spec : (mulU a b).1.toNat = a.toNat * b.toNat ∧ ((mulU a b).2 = true ↔ 2 ^ n ≤ a.toNat * b.toNat) := by
  have hlt : a.toNat * b.toNat < 2 ^ (n + n) := by
    rw [Nat.pow_add]
    exact Nat.mul_lt_mul'' a.isLt b.isLt
  have hp : (mulU a b).1.toNat = a.toNat * b.toNat := Nat.mod_eq_of_lt hlt
  refine ⟨hp, ?_⟩
  have hhigh : ((mulU a b).1.extractLsb' n n).toNat = a.toNat * b.toNat / 2 ^ n := by
    rw [BitVec.extractLsb'_toNat, hp, Nat.shiftRight_eq_div_pow]
    exact Nat.mod_eq_of_lt (Nat.div_lt_of_lt_mul (by rwa [← Nat.pow_add]))
  calc (mulU a b).2 = true
      ↔ ((mulU a b).1.extractLsb' n n).toNat ≠ 0 := by simp [mulU, BitVec.toNat_eq]
    _ ↔ 2 ^ n ≤ a.toNat * b.toNat := by rw [hhigh, Nat.div_ne_zero_iff]; simp

/-- The signed value of the low `n` bits of a number differs from it where it does not fit. -/
theorem bmod_ne_self_iff (hn : 0 < n) (x : Int) :
    x.bmod (2 ^ n) ≠ x ↔ x < -(2 : Int) ^ (n - 1) ∨ 2 ^ (n - 1) ≤ x := by
  have hm : 2 ^ (n - 1) * 2 = 2 ^ n := Nat.two_pow_pred_mul_two hn
  have hp : (2 : Int) ^ (n - 1) = (2 ^ (n - 1) : Nat) := by norm_cast
  rw [ne_eq, Int.bmod_eq_iff (Nat.two_pow_pos n), hp, ← hm, Int.sub_self]
  simp only [dvd_zero, and_true]
  omega

/-- IMUL to a register (41_arithmetic.md R461). -/
theorem mulTrunc_spec (hn : 0 < n) :
    (mulTrunc a b).1 = a * b ∧ ((mulTrunc a b).2 = true ↔
      a.toInt * b.toInt < -(2 : Int) ^ (n - 1) ∨ 2 ^ (n - 1) ≤ a.toInt * b.toInt) := by
  constructor
  · simp [mulTrunc, BitVec.ofInt_mul]
  · rw [← bmod_ne_self_iff hn, ← BitVec.toInt_ofInt]
    exact decide_eq_true_iff

/-- Two signed values of `n` bits have a product of `n + n` bits. -/
theorem mulS_toInt (hn : 0 < n) : (mulS a b).1.toInt = a.toInt * b.toInt := by
  have hle : -2 ^ (n * 2 - 2) ≤ a.toInt * b.toInt := BitVec.le_toInt_mul_toInt
  have hge : a.toInt * b.toInt ≤ 2 ^ (n * 2 - 2) := BitVec.toInt_mul_toInt_le
  have hlt : (2 : Int) ^ (n * 2 - 2) < 2 ^ (n + n - 1) := pow_lt_pow_right₀ (by decide) (by omega)
  exact BitVec.toInt_ofInt_eq_self (by omega) (by omega) (by omega)

/-- IMUL, one operand: its low half, sign-extended, is the product where that fits (41_arithmetic.md R460). -/
theorem mulS_spec (hn : 0 < n) :
    (mulS a b).1.toInt = a.toInt * b.toInt ∧ ((mulS a b).2 = true ↔
      a.toInt * b.toInt < -(2 : Int) ^ (n - 1) ∨ 2 ^ (n - 1) ≤ a.toInt * b.toInt) := by
  refine ⟨mulS_toInt a b hn, ?_⟩
  rw [← bmod_ne_self_iff hn, ← mulS_toInt a b hn]
  have hlow : (((mulS a b).1.setWidth n).signExtend (n + n)).toInt = (mulS a b).1.toInt.bmod (2 ^ n) := by
    rw [BitVec.toInt_signExtend_of_le (by omega), BitVec.toInt_setWidth,
      (mulS a b).1.toInt_eq_toNat_bmod, Int.bmod_bmod_of_dvd (pow_dvd_pow 2 (by omega))]
  rw [← hlow, ne_comm, ne_eq, BitVec.toInt_inj]
  exact bne_iff_ne

end

/-! ## Quotients -/

section

variable {n : Nat} {a : BitVec (n + n)} {d q r : BitVec n}

/-- DIV has no quotient (41_arithmetic.md R462). -/
theorem divU_eq_none_iff : divU a d = none ↔ d.toNat = 0 ∨ 2 ^ n ≤ a.toNat / d.toNat := by
  rw [divU, ite_eq_left_iff]
  simp only [reduceCtorEq, imp_false, not_not]

/-- DIV has a quotient and a remainder, and both fit. -/
theorem divU_eq_some (h : divU a d = some (q, r)) :
    a.toNat = q.toNat * d.toNat + r.toNat ∧ r.toNat < d.toNat := by
  unfold divU at h
  split at h
  · cases h
  next hfit =>
    obtain ⟨hd, hlt⟩ := not_or.mp hfit
    obtain ⟨rfl, rfl⟩ := Prod.mk.inj (Option.some.inj h)
    have hr : a.toNat % d.toNat < d.toNat := Nat.mod_lt _ (Nat.pos_of_ne_zero hd)
    rw [BitVec.toNat_ofNat, BitVec.toNat_ofNat, Nat.mod_eq_of_lt (Nat.not_le.mp hlt),
      Nat.mod_eq_of_lt (hr.trans d.isLt)]
    exact ⟨(Nat.div_add_mod' _ _).symm, hr⟩

/-- IDIV has no quotient (41_arithmetic.md R463). -/
theorem divS_eq_none_iff :
    divS a d = none ↔
      d.toInt = 0 ∨ ¬(-(2 : Int) ^ (n - 1) ≤ a.toInt.tdiv d.toInt ∧ a.toInt.tdiv d.toInt < 2 ^ (n - 1)) := by
  rw [divS, ite_eq_left_iff]
  simp only [reduceCtorEq, imp_false, not_not]
  omega

/-- A remainder of a division truncated toward zero has the sign of the dividend. -/
theorem tmod_mul_self_nonneg (x y : Int) : 0 ≤ x.tmod y * x := by
  rcases Int.le_total 0 x with hx | hx
  · exact mul_nonneg (Int.tmod_nonneg y hx) hx
  · have hneg : 0 ≤ (-x).tmod y := Int.tmod_nonneg y (by omega)
    rw [Int.neg_tmod] at hneg
    exact mul_nonneg_of_nonpos_of_nonpos (by omega) hx

/-- IDIV has a quotient and a remainder, and both fit: the remainder is smaller than the divisor. -/
theorem divS_eq_some (hn : 0 < n) (h : divS a d = some (q, r)) :
    a.toInt = q.toInt * d.toInt + r.toInt ∧ r.toInt.natAbs < d.toInt.natAbs ∧ 0 ≤ r.toInt * a.toInt := by
  simp only [divS] at h
  split at h
  · cases h
  next hfit =>
    obtain ⟨rfl, rfl⟩ := Prod.mk.inj (Option.some.inj h)
    have hlt : (a.toInt.tmod d.toInt).natAbs < d.toInt.natAbs := by
      rw [Int.natAbs_tmod]
      exact Nat.mod_lt _ (by omega)
    have hdl := d.le_toInt
    have hdu := d.toInt_lt
    have hr : (BitVec.ofInt n (a.toInt.tmod d.toInt)).toInt = a.toInt.tmod d.toInt :=
      BitVec.toInt_ofInt_eq_self hn (by omega) (by omega)
    rw [BitVec.toInt_ofInt_eq_self hn (by omega) (by omega), hr]
    exact ⟨(Int.tdiv_mul_add_tmod _ _).symm, hlt, tmod_mul_self_nonneg _ _⟩

end

/-! ## The obligation about flags -/

/-- Settles O17: a sum is taken apart by its carry, a difference by the sum that gives its first term back. -/
theorem sumAndDifferenceFlags : Obligations.SumAndDifferenceFlags := fun _ a b c x hn =>
  ⟨addFlags_spec a b c hn, subFlags_spec a b c hn, logicFlags_spec a x⟩

end Sys2Proof.Machine
end

section
/-! PROOFS. The instructions of 41_arithmetic.md and the Boolean ones: what each form does where its operands can be
reached (O18 to O24). -/

namespace Sys2Proof.Machine

variable {s : State}

/-! ## Two operands -/

/-- The meaning of an operation with two operands. -/
def Alu.binOp : Alu → BinOp
  | .add => addOp
  | .adc => adcOp
  | .sub => subOp
  | .sbb => sbbOp
  | .and => andOp
  | .or => orOp
  | .xor => xorOp

/-- An operation gives its result and draws its free values. -/
theorem Alu.binOp_run (op : Alu) (w : Nat) (a b : BitVec w) :
    op.binOp w a b (Tx.start s) = .ok (op.result s a b) (Tx.afterDraws s op.draws) := by
  cases op <;> rfl

/-- Each byte form is its operation on its destination and a source that is only read (41_arithmetic.md R451 to R454,
42_logic_shift_bit.md R501 to R503). -/
theorem exec_binary8 {i : Instr} {op : Alu} {dst : RM Reg8} {src : Src8} (hi : binary8 i = some (op, dst, src)) :
    ∃ m, exec i s = seqInstr (isMem dst) (binEb op.binOp dst m) s ∧
      (s.okSrc8 src = true → m (Tx.start s) = .ok (s.src8 src) (Tx.start s)) := by
  cases i with
  | addEbGb | adcEbGb | subEbGb | sbbEbGb | andEbGb | orEbGb | xorEbGb => cases hi; exact ⟨_, rfl, fun _ => rfl⟩
  | addGbEb _ e | adcGbEb _ e | subGbEb _ e | sbbGbEb _ e | andGbEb _ e | orGbEb _ e | xorGbEb _ e =>
    cases hi; exact ⟨_, rfl, readB_run e (Tx.start s)⟩
  | addALIb | adcALIb | subALIb | sbbALIb | andALIb | orALIb | xorALIb
  | addEbIb | adcEbIb | subEbIb | sbbEbIb | andEbIb | orEbIb | xorEbIb => cases hi; exact ⟨_, rfl, fun _ => rfl⟩
  | _ => exact absurd hi (Option.some_ne_none _).symm

/-- The operand-size forms likewise. -/
theorem exec_binaryV {i : Instr} {op : Alu} {dst : RM Gpr} {src : SrcV} (hi : binaryV i = some (op, dst, src)) :
    ∃ m, exec i s = seqInstr (isMem dst) (binEv op.binOp dst m) s ∧
      (s.okSrcV s.osz src = true → m s.osz (Tx.start s) = .ok (s.srcV s.osz src) (Tx.start s)) := by
  cases i with
  | addEvGv | adcEvGv | subEvGv | sbbEvGv | andEvGv | orEvGv | xorEvGv => cases hi; exact ⟨_, rfl, fun _ => rfl⟩
  | addGvEv _ e | adcGvEv _ e | subGvEv _ e | sbbGvEv _ e | andGvEv _ e | orGvEv _ e | xorGvEv _ e =>
    cases hi; exact ⟨_, rfl, readV_run s.osz e (Tx.start s)⟩
  | addEAXIv | adcEAXIv | subEAXIv | sbbEAXIv | andEAXIv | orEAXIv | xorEAXIv
  | addEvIv | adcEvIv | subEvIv | sbbEvIv | andEvIv | orEvIv | xorEvIv
  | addEvIb | adcEvIb | subEvIb | sbbEvIb | andEvIb | orEvIb | xorEvIb => cases hi; exact ⟨_, rfl, fun _ => rfl⟩
  | _ => exact absurd hi (Option.some_ne_none _).symm

/-- Settles O18: every form runs its operation, which decides the result, the flags and the draw. -/
theorem binaryOperations : Obligations.BinaryOperations := by
  refine ⟨fun i op dst src s hi hl hd hs => ?_, fun i op dst src s hi hl hd hs => ?_⟩
  · obtain ⟨m, he, hm⟩ := exec_binary8 (s := s) hi
    rw [he]
    exact seqInstr_done hl (binEb_run hd (hm hs) (op.binOp_run 8 _ _))
  · obtain ⟨m, he, hm⟩ := exec_binaryV (s := s) hi
    rw [he]
    exact seqInstr_done hl (binEv_run hd (hm hs) (op.binOp_run s.osz _ _))

/-- CMP is SUB and TEST is AND, without the write (41_arithmetic.md R455, 42_logic_shift_bit.md R505). -/
theorem exec_compare8 {i : Instr} {op : Alu} {dst : RM Reg8} {src : Src8} (hi : compare8 i = some (op, dst, src)) :
    ∃ m, exec i s = seqInstr false (cmpEb op.binOp dst m) s ∧
      (s.okSrc8 src = true → m (Tx.start s) = .ok (s.src8 src) (Tx.start s)) := by
  cases i with
  | cmpEbGb | testEbGb => cases hi; exact ⟨_, rfl, fun _ => rfl⟩
  | cmpGbEb g e => cases hi; exact ⟨_, rfl, readB_run e (Tx.start s)⟩
  | cmpALIb | testALIb | cmpEbIb | testEbIb => cases hi; exact ⟨_, rfl, fun _ => rfl⟩
  | _ => exact absurd hi (Option.some_ne_none _).symm

/-- The operand-size forms likewise. -/
theorem exec_compareV {i : Instr} {op : Alu} {dst : RM Gpr} {src : SrcV} (hi : compareV i = some (op, dst, src)) :
    ∃ m, exec i s = seqInstr false (cmpEv op.binOp dst m) s ∧
      (s.okSrcV s.osz src = true → m s.osz (Tx.start s) = .ok (s.srcV s.osz src) (Tx.start s)) := by
  cases i with
  | cmpEvGv | testEvGv => cases hi; exact ⟨_, rfl, fun _ => rfl⟩
  | cmpGvEv g e => cases hi; exact ⟨_, rfl, readV_run s.osz e (Tx.start s)⟩
  | cmpEAXIv | testEAXIv | cmpEvIv | testEvIv | cmpEvIb => cases hi; exact ⟨_, rfl, fun _ => rfl⟩
  | _ => exact absurd hi (Option.some_ne_none _).symm

/-- Settles O19: every form compares by its operation and writes the flags alone. -/
theorem comparisons : Obligations.Comparisons := by
  refine ⟨fun i op dst src s hi hl hd hs => ?_, fun i op dst src s hi hl hd hs => ?_⟩
  · obtain ⟨m, he, hm⟩ := exec_compare8 (s := s) hi
    rw [he]
    exact seqInstr_next hl (cmpEb_run hd (hm hs) (op.binOp_run 8 _ _))
  · obtain ⟨m, he, hm⟩ := exec_compareV (s := s) hi
    rw [he]
    exact seqInstr_next hl (cmpEv_run hd (hm hs) (op.binOp_run s.osz _ _))

/-! ## One operand -/

/-- The meaning of an operation with one operand. -/
def Unary.unOp : Unary → UnOp
  | .inc => incOp
  | .dec => decOp
  | .neg => negOp
  | .not => notOp

/-- An operation with one operand gives its result and draws nothing. -/
theorem Unary.unOp_run (op : Unary) (w : Nat) (a : BitVec w) :
    op.unOp w a (Tx.start s) = .ok (op.result s a) (Tx.start s) := by
  cases op <;> rfl

/-- Each byte form is its operation on its operand (41_arithmetic.md R456 to R458, 42_logic_shift_bit.md R504). -/
theorem exec_unary8 {i : Instr} {op : Unary} {e : RM Reg8} (hi : unary8 i = some (op, e)) :
    exec i s = seqInstr (isMem e) (unEb op.unOp e) s := by
  cases i with
  | incEb | decEb | negEb | notEb => cases hi; rfl
  | _ => exact absurd hi (Option.some_ne_none _).symm

/-- The operand-size forms likewise. -/
theorem exec_unaryV {i : Instr} {op : Unary} {e : RM Gpr} (hi : unaryV i = some (op, e)) :
    exec i s = seqInstr (isMem e) (unEv op.unOp e) s := by
  cases i with
  | incEv | decEv | negEv | notEv | incRv | decRv => cases hi; rfl
  | _ => exact absurd hi (Option.some_ne_none _).symm

/-- A bit written as it stands changes nothing. -/
theorem putBit_getLsbD {n : Nat} (v : BitVec n) {i : Nat} (hi : i < n) : putBit v i (v.getLsbD i) = v := by
  apply BitVec.eq_of_getLsbD_eq
  intro j _
  rw [getLsbD_putBit]
  split
  next h => rw [h, decide_eq_true hi, Bool.true_and]
  next => rfl

/-- The status flags written as they stand change nothing. -/
theorem setFlags_flags (s : State) : s.setFlags s.flags = s := by
  have hinto : s.flags.into s.eflags = s.eflags := by
    simp only [Flags.into, State.flags, State.cf, State.pf, State.af, State.zf, State.sf, State.of, putBit_getLsbD,
      Nat.reduceLT]
  rw [State.setFlags, hinto]

/-- Settles O20: every form runs its operation, whose result and flags are those of a sum or a difference. -/
theorem unaryOperations : Obligations.UnaryOperations := by
  refine ⟨fun i op e s hi hl he => ?_, fun i op e s hi hl he => ?_, fun s n a hn =>
    ⟨incFlags_spec a s.flags hn, decFlags_spec a s.flags hn, negFlags_spec a hn, fun i hi => ?_, setFlags_flags s⟩⟩
  · rw [exec_unary8 hi]
    exact seqInstr_done hl (unEb_run he (op.unOp_run 8 _))
  · rw [exec_unaryV hi]
    exact seqInstr_done hl (unEv_run he (op.unOp_run s.osz _))
  · simp [Unary.result, hi]

/-! ## Multiplication -/

section

variable {e : RM Reg8} {v : RM Gpr}

/-- MUL and IMUL of AL (41_arithmetic.md R459, R460). -/
theorem mulByte_run (mul : Byte → Byte → BitVec (8 + 8) × Bool) (h : s.ok8 e false = true) :
    let p := mul (s.reg8 .al) (s.get8 e)
    mulByte mul e (Tx.start s) = .ok ()
      { Tx.afterDraws s 1 with cur := ((s.drawn 1).setGprLow .eax p.1).setFlags (mulFlags p.2 (s.any 0)) } :=
  bind_then (readB_run e (Tx.start s) h) rfl

/-- MUL and IMUL of AX or EAX. -/
theorem mulWord_run (mul : (w : Nat) → BitVec w → BitVec w → BitVec (w + w) × Bool)
    (h : s.okV s.osz v false = true) :
    let p := mul s.osz (s.gprLow s.osz .eax) (s.getV s.osz v)
    mulWord mul v (Tx.start s) = .ok ()
      { Tx.afterDraws s 1 with cur := ((s.drawn 1).setPair s.osz p.1).setFlags (mulFlags p.2 (s.any 0)) } :=
  (withOsz_run _ _).trans (bind_then (readV_run s.osz v (Tx.start s) h) rfl)

/-- IMUL to a register, of its own value (41_arithmetic.md R461). -/
theorem imulOwn_run (g : Gpr) (h : s.okV s.osz v false = true) :
    let p := mulTrunc (s.gprLow s.osz g) (s.getV s.osz v)
    withOsz (fun w => do imulTo w g (← look (·.gprLow w g)) (← readV w v)) (Tx.start s) = .ok ()
      { Tx.afterDraws s 1 with cur := ((s.drawn 1).setGprLow g p.1).setFlags (mulFlags p.2 (s.any 0)) } :=
  (withOsz_run _ _).trans (bind_then (look_run _ _) (bind_then (readV_run s.osz v (Tx.start s) h) rfl))

/-- IMUL to a register, of an operand and an immediate. -/
theorem imulImm_run (g : Gpr) (imm : (w : Nat) → BitVec w) (h : s.okV s.osz v false = true) :
    let p := mulTrunc (s.getV s.osz v) (imm s.osz)
    withOsz (fun w => do imulTo w g (← readV w v) (imm w)) (Tx.start s) = .ok ()
      { Tx.afterDraws s 1 with cur := ((s.drawn 1).setGprLow g p.1).setFlags (mulFlags p.2 (s.any 0)) } :=
  (withOsz_run _ _).trans (bind_then (readV_run s.osz v (Tx.start s) h) rfl)

end

/-- Settles O21: the products are exact at every width, and each form multiplies its operands. -/
theorem multiplications : Obligations.Multiplications := by
  refine ⟨fun n a b hn => ?_, fun _ _ => rfl, fun s hl => ⟨fun e h => ⟨?_, ?_⟩, fun e h => ⟨?_, ?_, fun g => ⟨?_,
    fun iv => ?_, fun ib => ?_⟩⟩⟩⟩
  · obtain ⟨hu, hub⟩ := mulU_spec a b
    obtain ⟨hs, hsb⟩ := mulS_spec a b hn
    obtain ⟨ht, htb⟩ := mulTrunc_spec a b hn
    exact ⟨hu, hub, hs, ht, hsb, htb⟩
  · exact seqInstr_next hl (mulByte_run mulU h)
  · exact seqInstr_next hl (mulByte_run mulS h)
  · exact seqInstr_next hl (mulWord_run (fun _ => mulU) h)
  · exact seqInstr_next hl (mulWord_run (fun _ => mulS) h)
  · exact seqInstr_next hl (imulOwn_run g h)
  · exact seqInstr_next hl (imulImm_run g (iv.setWidth ·) h)
  · exact seqInstr_next hl (imulImm_run g (ib.signExtend ·) h)

/-! ## Division -/

section

variable {e : RM Reg8} {v : RM Gpr}

/-- DIV and IDIV of AX where the quotient fits (41_arithmetic.md R462, R463). -/
theorem divByte_run {div : BitVec (8 + 8) → Byte → Option (Byte × Byte)} {q r : Byte} (h : s.ok8 e false = true)
    (hd : div (s.gprLow 16 .eax) (s.get8 e) = some (q, r)) :
    divByte div e (Tx.start s) = .ok ()
      { Tx.afterDraws s 1 with
        cur := (((s.drawn 1).setReg8 .al q).setReg8 .ah r).setFlags (Flags.free (s.any 0)) } := by
  refine bind_then (readB_run e (Tx.start s) h) (bind_then (look_run _ _) ?_)
  rw [show div ((Tx.start s).cur.gprLow 16 .eax) ((Tx.start s).cur.get8 e) = _ from hd]
  rfl

/-- DIV and IDIV of AX where no quotient fits (61_exception_vectors.md R973). -/
theorem divByte_raise {div : BitVec (8 + 8) → Byte → Option (Byte × Byte)} (h : s.ok8 e false = true)
    (hd : div (s.gprLow 16 .eax) (s.get8 e) = none) :
    divByte div e (Tx.start s) = .error (.raise { vec := 0, err := none }) (Tx.start s) := by
  refine bind_then (readB_run e (Tx.start s) h) (bind_then (look_run _ _) ?_)
  rw [show div ((Tx.start s).cur.gprLow 16 .eax) ((Tx.start s).cur.get8 e) = _ from hd]
  rfl

/-- DIV and IDIV of DX:AX or EDX:EAX where the quotient fits. -/
theorem divWord_run {div : (w : Nat) → BitVec (w + w) → BitVec w → Option (BitVec w × BitVec w)}
    {q r : BitVec s.osz} (h : s.okV s.osz v false = true)
    (hd : div s.osz (s.pair s.osz) (s.getV s.osz v) = some (q, r)) :
    divWord div v (Tx.start s) = .ok ()
      { Tx.afterDraws s 1 with
        cur := (((s.drawn 1).setGprLow .eax q).setGprLow .edx r).setFlags (Flags.free (s.any 0)) } := by
  refine (withOsz_run _ _).trans (bind_then (readV_run s.osz v (Tx.start s) h) (bind_then (look_run _ _) ?_))
  rw [show div (Tx.start s).cur.osz ((Tx.start s).cur.pair _) ((Tx.start s).cur.getV s.osz v) = _ from hd]
  rfl

/-- DIV and IDIV of DX:AX or EDX:EAX where no quotient fits. -/
theorem divWord_raise {div : (w : Nat) → BitVec (w + w) → BitVec w → Option (BitVec w × BitVec w)}
    (h : s.okV s.osz v false = true) (hd : div s.osz (s.pair s.osz) (s.getV s.osz v) = none) :
    divWord div v (Tx.start s) = .error (.raise { vec := 0, err := none }) (Tx.start s) := by
  refine (withOsz_run _ _).trans (bind_then (readV_run s.osz v (Tx.start s) h) (bind_then (look_run _ _) ?_))
  rw [show div (Tx.start s).cur.osz ((Tx.start s).cur.pair _) ((Tx.start s).cur.getV s.osz v) = _ from hd]
  rfl

end

/-- Settles O22: each form writes the quotient and the remainder of its division. -/
theorem divisions : Obligations.Divisions := fun _ hl =>
  ⟨fun _ _ _ h => ⟨fun hd => seqInstr_next hl (divByte_run h hd), fun hd => seqInstr_next hl (divByte_run h hd)⟩,
    fun _ _ _ h => ⟨fun hd => seqInstr_next hl (divWord_run (div := fun _ => divU) h hd),
      fun hd => seqInstr_next hl (divWord_run (div := fun _ => divS) h hd)⟩⟩

/-- Settles O23: the division is exact where it has a result, and each form traps where it has none. -/
theorem divideErrors : Obligations.DivideErrors := by
  refine ⟨fun n a d q r hn => ⟨divU_eq_some, divU_eq_none_iff, divS_eq_some hn, divS_eq_none_iff⟩, fun s hl =>
    ⟨fun e h => ⟨fun hd => ?_, fun hd => ?_⟩, fun e h => ⟨fun hd => ?_, fun hd => ?_⟩⟩⟩
  · exact seqInstr_trapped hl (divByte_raise h hd) rfl
  · exact seqInstr_trapped hl (divByte_raise h hd) rfl
  · exact seqInstr_trapped hl (divWord_raise (div := fun _ => divU) h hd) rfl
  · exact seqInstr_trapped hl (divWord_raise (div := fun _ => divS) h hd) rfl

/-! ## Decimal adjustment -/

/-- The low digit needs an adjustment (41_arithmetic.md R464). -/
def lowAdjusts (al : Byte) (af : Bool) : Bool := decide (9 < al.toNat % 16) || af

/-- The high digit needs an adjustment (41_arithmetic.md R464). -/
def highAdjusts (al : Byte) (cf : Bool) : Bool := decide (0x99 < al.toNat) || cf

/-- The flags of an adjustment whose result `r` is described by ZF, SF and PF; OF is a free value. -/
def Flags.adjusted (cf af : Bool) (r : Byte) (x : Dword) : Flags :=
  { cf := cf, pf := evenOnes r, af := af, zf := decide (r = 0), sf := r.getLsbD 7, of := x.getLsbD 11 }

/-- The flags of AAA and AAS: AF and CF say whether AL was adjusted, the others are free values. -/
def Flags.asciiAdjusted (adj : Bool) (x : Dword) : Flags :=
  { cf := adj, pf := x.getLsbD 2, af := adj, zf := x.getLsbD 6, sf := x.getLsbD 7, of := x.getLsbD 11 }

/-- `SZP` of a byte (41_arithmetic.md R450). -/
theorem szp_byte (f : Flags) (r : Byte) :
    f.szp r = { f with pf := evenOnes r, zf := decide (r = 0), sf := r.getLsbD 7 } := by
  rw [Flags.szp, parity_evenOnes]
  rfl

theorem ite_add_eq (b : Bool) (x k : Byte) : (if b then x + k else x) = x + (if b then k else 0) := by
  cases b <;> simp

theorem ite_sub_eq (b : Bool) (x k : Byte) : (if b then x - k else x) = x - (if b then k else 0) := by
  cases b <;> simp

theorem ite_and_eq (b : Bool) (x y k : Byte) : (if b then x &&& k else y &&& k) = (if b then x else y) &&& k := by
  cases b <;> rfl

section

variable (al ah ib : Byte) (old : Flags) (x : Dword)

/-- DAA (41_arithmetic.md R464). -/
theorem daaAlu_eq :
    let low := lowAdjusts al old.af
    let high := highAdjusts al old.cf
    let r := al + (if low then 6 else 0) + (if high then 0x60 else 0)
    daaAlu al old x = (r, .adjusted high low r x) := by
  simp only [daaAlu, szp_byte, ite_add_eq]
  rfl

/-- DAS (41_arithmetic.md R465): a borrow of the low digit or an adjustment of the high one sets CF. -/
theorem dasAlu_eq :
    let low := lowAdjusts al old.af
    let high := highAdjusts al old.cf
    let r := al - (if low then 6 else 0) - (if high then 0x60 else 0)
    dasAlu al old x = (r, .adjusted (high || (low && (old.cf || decide (al.toNat < 6)))) low r x) := by
  simp only [dasAlu, szp_byte, ite_sub_eq, Bool.or_comm _ (decide (0x99 < al.toNat) || old.cf)]
  rfl

/-- AAA (41_arithmetic.md R466). -/
theorem aaaAlu_eq :
    let low := lowAdjusts al old.af
    aaaAlu al ah old x =
      ((if low then al + 6 else al) &&& 0x0F, if low then ah + 1 else ah, .asciiAdjusted low x) := by
  simp only [aaaAlu, ite_and_eq]
  rfl

/-- AAS (41_arithmetic.md R467). -/
theorem aasAlu_eq :
    let low := lowAdjusts al old.af
    aasAlu al ah old x =
      ((if low then al - 6 else al) &&& 0x0F, if low then ah - 1 else ah, .asciiAdjusted low x) := by
  simp only [aasAlu, ite_and_eq]
  rfl

/-- AAM by a divisor that is not 0 (41_arithmetic.md R468). -/
theorem aamAlu_eq : aamAlu al ib x = (al % ib, al / ib, .adjusted (x.getLsbD 0) (x.getLsbD 4) (al % ib) x) := by
  rw [aamAlu, szp_byte]
  rfl

/-- AAD (41_arithmetic.md R469). -/
theorem aadAlu_eq :
    aadAlu al ah ib x = (ah * ib + al, .adjusted (x.getLsbD 0) (x.getLsbD 4) (ah * ib + al) x) := by
  rw [aadAlu, szp_byte]
  rfl

end

section

variable {r h ib : Byte} {f : Flags}

/-- DAA and DAS write AL and the flags. -/
theorem adjustAL_run {alu : Byte → Flags → Dword → Byte × Flags}
    (ha : alu (s.reg8 .al) s.flags (s.any 0) = (r, f)) :
    adjustAL alu (Tx.start s) = .ok ()
      { Tx.afterDraws s 1 with cur := ((s.drawn 1).setReg8 .al r).setFlags f } := by
  obtain ⟨rfl, rfl⟩ := Prod.ext_iff.mp ha
  rfl

/-- AAA and AAS write AL, AH and the flags. -/
theorem adjustAX_run {alu : Byte → Byte → Flags → Dword → Byte × Byte × Flags}
    (ha : alu (s.reg8 .al) (s.reg8 .ah) s.flags (s.any 0) = (r, h, f)) :
    adjustAX alu (Tx.start s) = .ok ()
      { Tx.afterDraws s 1 with cur := (((s.drawn 1).setReg8 .al r).setReg8 .ah h).setFlags f } := by
  obtain ⟨rfl, hrest⟩ := Prod.ext_iff.mp ha
  obtain ⟨rfl, rfl⟩ := Prod.ext_iff.mp hrest
  rfl

/-- AAM writes AL, AH and the flags where its divisor is not 0. -/
theorem aamBody_run (hib : ib ≠ 0) (ha : aamAlu (s.reg8 .al) ib (s.any 0) = (r, h, f)) :
    aamBody ib (Tx.start s) = .ok ()
      { Tx.afterDraws s 1 with cur := (((s.drawn 1).setReg8 .al r).setReg8 .ah h).setFlags f } := by
  obtain ⟨rfl, hrest⟩ := Prod.ext_iff.mp ha
  obtain ⟨rfl, rfl⟩ := Prod.ext_iff.mp hrest
  exact if_else hib rfl

/-- AAD writes AL, AH and the flags. -/
theorem aadBody_run (ha : aadAlu (s.reg8 .al) (s.reg8 .ah) ib (s.any 0) = (r, f)) :
    aadBody ib (Tx.start s) = .ok ()
      { Tx.afterDraws s 1 with cur := (((s.drawn 1).setReg8 .al r).setReg8 .ah 0).setFlags f } := by
  obtain ⟨rfl, rfl⟩ := Prod.ext_iff.mp ha
  rfl

end

/-- Settles O24: each form writes what its adjustment gives; AAM by 0 has no quotient. -/
theorem decimalAdjustments : Obligations.DecimalAdjustments := by
  intro s hl
  refine ⟨?_, ?_, ?_, ?_, fun ib hib => ?_, ?_, fun ib => ?_⟩
  · exact seqInstr_next hl (adjustAL_run (daaAlu_eq _ _ _))
  · exact seqInstr_next hl (adjustAL_run (dasAlu_eq _ _ _))
  · exact seqInstr_next hl (adjustAX_run (aaaAlu_eq _ _ _ _))
  · exact seqInstr_next hl (adjustAX_run (aasAlu_eq _ _ _ _))
  · exact seqInstr_next hl (aamBody_run hib (aamAlu_eq _ _ _))
  · exact seqInstr_trapped hl (if_then rfl rfl) rfl
  · exact seqInstr_next hl (aadBody_run (aadAlu_eq _ _ _ _))

end Sys2Proof.Machine
end

section
/-! PROOFS. What the shifts and rotates of 42_logic_shift_bit.md do with the bits, at every width, and the flags they
leave (O27). The forms of the instructions stand in the next part. -/

namespace Sys2Proof.Machine

/-! ## Rotation -/

section

variable {w i c : Nat} (v : BitVec w)

/-- A turn to the left by `c` takes bit `i` to bit `i + c`, counted around. -/
theorem getLsbD_rotateLeft_add_mod (hi : i < w) : (v.rotateLeft c).getLsbD ((i + c) % w) = v.getLsbD i := by
  have hc : c % w < w := Nat.mod_lt c (by omega)
  rw [BitVec.getLsbD_rotateLeft, Nat.add_mod_eq_ite, Nat.mod_eq_of_lt hi]
  generalize c % w = m at hc
  split
  next h => simp [show i + m - w < m by omega, show w - m + (i + m - w) = i by omega]
  next h => simp [show i + m < w by omega]

/-- A turn to the right by `c` brings bit `i + c`, counted around, to bit `i`. -/
theorem getLsbD_rotateRight_eq_add_mod (hi : i < w) : (v.rotateRight c).getLsbD i = v.getLsbD ((i + c) % w) := by
  have hc : c % w < w := Nat.mod_lt c (by omega)
  rw [BitVec.getLsbD_rotateRight, Nat.add_mod_eq_ite, Nat.mod_eq_of_lt hi]
  generalize c % w = m at hc
  split
  next h => simp [hi, show ¬ i < w - m by omega, show i - (w - m) = i + m - w by omega]
  next h => simp [show i < w - m by omega, Nat.add_comm]

end

/-! ## Rotation through CF -/

/-- The bits of a value, with CF as one more above them (42_logic_shift_bit.md R512). -/
def bitWithCarry {n : Nat} (cf : Bool) (v : BitVec n) (i : Nat) : Bool := if i = n then cf else v.getLsbD i

section

variable {n i : Nat}

theorem bitWithCarry_eq_append (cf : Bool) (a : BitVec n) (hi : i ≤ n) :
    bitWithCarry cf a i = (BitVec.ofBool cf ++ a).getLsbD i := by
  rw [bitWithCarry, BitVec.getLsbD_append]
  split
  next h => simp [h]
  next h => rw [if_pos (by omega)]

theorem bitWithCarry_setWidth (v : BitVec (1 + n)) (hi : i ≤ n) :
    bitWithCarry v.msb (v.setWidth n) i = v.getLsbD i := by
  rw [bitWithCarry]
  split
  next h => rw [BitVec.msb_eq_getLsbD_last, h, Nat.add_sub_cancel_left]
  next h => rw [BitVec.getLsbD_setWidth, decide_eq_true (by omega : i < n), Bool.true_and]

variable (a : BitVec n) (c : Nat) (old : Flags) (x : Dword)

/-- RCL turns CF and the operand to the left as one value of `n + 1` bits. -/
theorem rclAlu_bit (hi : i ≤ n) :
    bitWithCarry (rclAlu a c old x).2.cf (rclAlu a c old x).1 ((i + c) % (n + 1)) = bitWithCarry old.cf a i := by
  have hk : (i + c) % (n + 1) ≤ n := Nat.le_of_lt_succ (Nat.mod_lt _ n.succ_pos)
  refine (bitWithCarry_setWidth _ hk).trans ?_
  rw [bitWithCarry_eq_append _ _ hi, Nat.add_comm n 1, getLsbD_rotateLeft_add_mod _ (by omega)]

/-- RCR turns them to the right. -/
theorem rcrAlu_bit (hi : i ≤ n) :
    bitWithCarry (rcrAlu a c old x).2.cf (rcrAlu a c old x).1 i = bitWithCarry old.cf a ((i + c) % (n + 1)) := by
  have hk : (i + c) % (n + 1) ≤ n := Nat.le_of_lt_succ (Nat.mod_lt _ n.succ_pos)
  refine (bitWithCarry_setWidth _ hi).trans ?_
  rw [bitWithCarry_eq_append _ _ hk, Nat.add_comm n 1, getLsbD_rotateRight_eq_add_mod _ (by omega)]

end

section

variable {n c i : Nat} (a b y : BitVec n) (old : Flags) (x : Dword)

/-! ## Shifts -/

theorem shlAlu_bit (hi : i < n) : (shlAlu a c x).1.getLsbD i = (decide (c ≤ i) && a.getLsbD (i - c)) := by
  refine (BitVec.getLsbD_shiftLeft ..).trans ?_
  rw [decide_eq_true hi, Bool.true_and, ← decide_not, decide_eq_decide.mpr not_lt]

theorem shrAlu_toNat : (shrAlu a c x).1.toNat = a.toNat / 2 ^ c :=
  (BitVec.toNat_ushiftRight a c).trans (Nat.shiftRight_eq_div_pow _ _)

theorem sarAlu_toInt : (sarAlu a c x).1.toInt = a.toInt / 2 ^ c := by
  refine BitVec.toInt_sshiftRight.trans ((Int.shiftRight_eq_div_pow _ _).trans ?_)
  norm_cast

/-! ## Double shifts -/

/-- SHLD by a count up to the width (42_logic_shift_bit.md R514). -/
theorem shldAlu_of_le (hc : c ≤ n) :
    let r := (a <<< c) ||| (b >>> (n - c))
    shldAlu a b c x y = (r, Flags.szp { Flags.free x with
      cf := a.getLsbD (n - c), of := if c = 1 then r.msb != a.msb else (Flags.free x).of } r) :=
  if_neg (not_lt.mpr hc)

/-- SHRD by a count up to the width (42_logic_shift_bit.md R515). -/
theorem shrdAlu_of_le (hc : c ≤ n) :
    let r := (a >>> c) ||| (b <<< (n - c))
    shrdAlu a b c x y = (r, Flags.szp { Flags.free x with
      cf := a.getLsbD (c - 1), of := if c = 1 then r.msb != a.msb else (Flags.free x).of } r) :=
  if_neg (not_lt.mpr hc)

/-- The high bits of the second operand enter SHLD from below. -/
theorem shldAlu_bit (hc : c ≤ n) (hi : i < n) :
    (shldAlu a b c x y).1.getLsbD i = if i < c then b.getLsbD (n - c + i) else a.getLsbD (i - c) := by
  rw [shldAlu_of_le _ _ _ _ hc]
  simp only [BitVec.getLsbD_or, BitVec.getLsbD_shiftLeft, BitVec.getLsbD_ushiftRight]
  by_cases h : i < c
  · simp [h]
  · simp [h, hi, BitVec.getLsbD_of_ge b (n - c + i) (by omega)]

/-- The low bits of the second operand enter SHRD from above. -/
theorem shrdAlu_bit (hc : c ≤ n) (hi : i < n) :
    (shrdAlu a b c x y).1.getLsbD i = if i < n - c then a.getLsbD (i + c) else b.getLsbD (i - (n - c)) := by
  rw [shrdAlu_of_le _ _ _ _ hc]
  simp only [BitVec.getLsbD_or, BitVec.getLsbD_shiftLeft, BitVec.getLsbD_ushiftRight]
  by_cases h : i < n - c
  · simp [h, Nat.add_comm]
  · simp [h, hi, BitVec.getLsbD_of_ge a (c + i) (by omega)]

end

/-! ## Flags -/

/-- SF, ZF and PF describe the result; AF is open, and OF unless the count is 1. -/
def ShiftedFlags {n : Nat} (c : Nat) (x : Dword) (p : BitVec n × Flags) : Prop :=
  p.2.describes p.1 ∧ p.2.af = x.getLsbD 4 ∧ (c ≠ 1 → p.2.of = x.getLsbD 11)

theorem szp_shiftedFlags {n c : Nat} {x : Dword} {f : Flags} (r : BitVec n) (haf : f.af = x.getLsbD 4)
    (hof : c ≠ 1 → f.of = x.getLsbD 11) : ShiftedFlags c x (r, f.szp r) := ⟨szp_describes f r, haf, hof⟩

/-- Settles O27: the results are those of shifts and turns of bit vectors, and the flags are read off the definitions. -/
theorem shiftBits : Obligations.ShiftBits := by
  intro n c a b y old x hn hc
  refine ⟨fun i hi => shlAlu_bit a x hi, shrAlu_toNat a x, sarAlu_toInt a x, fun h => ⟨if_pos h, if_pos h, if_pos h⟩,
    fun i hi => ⟨getLsbD_rotateLeft_add_mod a hi, getLsbD_rotateRight_eq_add_mod a hi⟩, rfl,
    BitVec.msb_eq_getLsbD_last _, fun i hi => ⟨rclAlu_bit a c old x hi, rcrAlu_bit a c old x hi⟩, fun h => ?_, ?_,
    fun h => ?_, ?_⟩
  · have hl := shldAlu_of_le a b y x h
    have hr := shrdAlu_of_le a b y x h
    exact ⟨fun i hi => shldAlu_bit a b y x h hi, fun i hi => shrdAlu_bit a b y x h hi, by rw [hl]; rfl,
      by rw [hr]; rfl⟩
  · refine ⟨szp_shiftedFlags _ rfl fun h => if_neg h, szp_shiftedFlags _ rfl fun h => if_neg h,
      szp_shiftedFlags _ rfl fun h => if_neg h, fun h => ⟨?_, ?_⟩, ?_⟩
    · rw [shldAlu_of_le a b y x h]
      exact szp_shiftedFlags _ rfl fun h => if_neg h
    · rw [shrdAlu_of_le a b y x h]
      exact szp_shiftedFlags _ rfl fun h => if_neg h
    · refine ⟨?_, ?_, ?_, ?_⟩ <;> exact ⟨rfl, rfl, rfl, rfl, fun h => if_neg h⟩
  · have hle : ¬ c ≤ n := not_le.mpr h
    exact ⟨if_neg hle, if_neg hle, if_neg hle, if_pos h, if_pos h⟩
  · rintro rfl
    refine ⟨rfl, rfl, rfl, rfl, rfl, ?_, ?_, ?_, ?_⟩
    · exact congrArg (· != _) (BitVec.msb_eq_getLsbD_last _)
    · exact congrArg (· != _) (BitVec.msb_eq_getLsbD_last _)
    · rw [shldAlu_of_le a b y x hn]
      rfl
    · rw [shrdAlu_of_le a b y x hn]
      rfl

end Sys2Proof.Machine
end

section
/-! PROOFS. The instructions of 42_logic_shift_bit.md: SETcc and the conditions, the forms of the shifts and rotates,
bit tests and bit scans (O25, O26, O28, O29). -/

namespace Sys2Proof.Machine

variable {s : State}

/-! ## Conditions -/

section

variable (s) (f : Flags)

@[simp] theorem setFlags_cf : (s.setFlags f).cf = f.cf := by
  simp only [State.cf, Flags.into, setFlags_eflags, getLsbD_putBit]
  rfl
@[simp] theorem setFlags_zf : (s.setFlags f).zf = f.zf := by
  simp only [State.zf, Flags.into, setFlags_eflags, getLsbD_putBit]
  rfl
@[simp] theorem setFlags_sf : (s.setFlags f).sf = f.sf := by
  simp only [State.sf, Flags.into, setFlags_eflags, getLsbD_putBit]
  rfl
@[simp] theorem setFlags_of : (s.setFlags f).of = f.of := by
  simp only [State.of, Flags.into, setFlags_eflags, getLsbD_putBit]
  rfl

end

section

variable {n : Nat}

/-- A comparison borrows where the first value is below the second. -/
theorem subFlags_cf_eq (a b : BitVec n) : (subFlags a b false).2.cf = decide (a.toNat < b.toNat) := rfl

/-- The difference is zero where the two values are equal. -/
theorem subFlags_zf_eq (a b : BitVec n) : (subFlags a b false).2.zf = decide (a = b) := by
  have hsub : a - b - bitVal false = 0 ↔ a = b := by simp [bitVal, BitVec.sub_eq_iff_eq_add]
  exact decide_eq_decide.mpr hsub

/-- The sign of the difference is wrong exactly where it overflows, so the two flags differ where the first value is
less. -/
theorem subFlags_sf_ne_of_eq (hn : 0 < n) (a b : BitVec n) :
    ((subFlags a b false).2.sf != (subFlags a b false).2.of) = decide (a.toInt < b.toInt) := by
  obtain ⟨-, -, hof, -, -, hsf, -⟩ := subFlags_spec a b false hn
  have hm : 2 ^ (n - 1) * 2 = 2 ^ n := Nat.two_pow_pred_mul_two hn
  have hsum := toNat_sum_cases hn (sub_bitVal_add a b false)
  have ha := toInt_cases hm a
  have hb := toInt_cases hm b
  have hr := toInt_cases hm (subFlags a b false).1
  rw [show a - b - bitVal false = (subFlags a b false).1 from rfl, Bool.toNat_false] at hsum
  rw [Bool.toNat_false] at hof
  generalize 2 ^ (n - 1) = m at *
  rw [Bool.eq_iff_iff, bne_iff_ne, ne_eq, Bool.eq_iff_iff, hsf, hof, decide_eq_true_iff]
  omega

end

/-! ## SETcc -/

/-- SETcc writes its condition as a number (42_logic_shift_bit.md R524). -/
theorem setByte_run (cc : Cond) {e : RM Reg8} (h : s.ok8 e true = true) :
    setByte cc e (Tx.start s) =
      .ok () { Tx.start s with cur := s.put8 e (if s.cond cc then 1 else 0) } :=
  bind_then (placeB_run e true (Tx.start s) h) <| bind_then (look_run _ _) (place8_put s 0 e _ h)

/-! The conditions in terms of below, equal and less (42_logic_shift_bit.md R523). -/

theorem cond_ae_eq : s.cond .ae = !s.cond .b := rfl
theorem cond_ne_eq : s.cond .ne = !s.cond .e := rfl
theorem cond_be_eq : s.cond .be = (s.cond .b || s.cond .e) := rfl
theorem cond_a_eq : s.cond .a = !s.cond .be := (Bool.not_or _ _).symm
theorem cond_ge_eq : s.cond .ge = !s.cond .l := (Bool.not_not _).symm
theorem cond_le_eq : s.cond .le = (s.cond .l || s.cond .e) := Bool.or_comm _ _
theorem cond_g_eq : s.cond .g = !s.cond .le := by
  rw [State.cond, State.cond, Bool.not_or, bne, Bool.not_not]

/-- Settles O25: SETcc writes its condition; below, equal and less read the flags of the comparison, and the other
conditions are made of these. -/
theorem conditionsAndSetByte : Obligations.ConditionsAndSetByte := by
  refine ⟨fun s cc e hl h => seqInstr_next hl (setByte_run cc h), fun s n a b hn => ?_⟩
  intro t
  have hb : t.cond .b = decide (a.toNat < b.toNat) := (setFlags_cf _ _).trans (subFlags_cf_eq a b)
  have he : t.cond .e = decide (a = b) := (setFlags_zf _ _).trans (subFlags_zf_eq a b)
  have hl : t.cond .l = decide (a.toInt < b.toInt) := by
    rw [← subFlags_sf_ne_of_eq hn, ← setFlags_sf s, ← setFlags_of s]
    rfl
  have hbe : t.cond .be = decide (a.toNat ≤ b.toNat) := by
    rw [cond_be_eq, hb, he, decide_eq_decide.mpr BitVec.toNat_eq, ← Bool.decide_or, decide_eq_decide]
    exact le_iff_lt_or_eq.symm
  have hle : t.cond .le = decide (a.toInt ≤ b.toInt) := by
    rw [cond_le_eq, hl, he, decide_eq_decide.mpr BitVec.toInt_inj.symm, ← Bool.decide_or, decide_eq_decide]
    exact le_iff_lt_or_eq.symm
  refine ⟨hb, ?_, he, ?_, hbe, ?_, hl, ?_, hle, ?_⟩
  · rw [cond_ae_eq, hb, ← decide_not]
    exact decide_eq_decide.mpr not_lt
  · simp [cond_ne_eq, he]
  · rw [cond_a_eq, hbe, ← decide_not]
    exact decide_eq_decide.mpr not_le
  · rw [cond_ge_eq, hl, ← decide_not]
    exact decide_eq_decide.mpr not_lt
  · rw [cond_g_eq, hle, ← decide_not]
    exact decide_eq_decide.mpr not_le

/-! ## Shifts and rotates -/

/-- The meaning of a shift or rotate. -/
def Shift.shiftOp : Shift → ShiftOp
  | .rol => rolOp
  | .ror => rorOp
  | .rcl => rclOp
  | .rcr => rcrOp
  | .shl => shlOp
  | .shr => shrOp
  | .sar => sarOp

theorem Shift.shiftOp_eq_result (op : Shift) (w : Nat) (a : BitVec w) (c : Nat) (old : Flags) (x : Dword) :
    op.shiftOp w a c old x = op.result a c old x := by
  cases op <;> rfl

/-- How a count is read. -/
def Count.read : Count → M Byte
  | .one => pure 1
  | .cl => look (·.reg8 .cl)
  | .imm ib => pure ib

/-- The byte a count comes from. -/
def State.countByte (s : State) : Count → Byte
  | .one => 1
  | .cl => s.reg8 .cl
  | .imm ib => ib

theorem Count.read_run (c : Count) : c.read (Tx.start s) = .ok (s.countByte c) (Tx.start s) := by
  cases c <;> rfl

theorem maskCount_countByte (c : Count) : maskCount (s.countByte c) = s.shiftCount c := by
  cases c <;> rfl

/-- Each byte form shifts its operand by its count (42_logic_shift_bit.md R506 to R513). -/
theorem exec_shift8 {i : Instr} {op : Shift} {e : RM Reg8} {c : Count} (hi : shift8 i = some (op, e, c)) :
    exec i s = seqInstr false (shiftEb op.shiftOp e c.read) s := by
  cases i with
  | rolEb1 | rolEbCL | rolEbIb | rorEb1 | rorEbCL | rorEbIb | rclEb1 | rclEbCL | rclEbIb | rcrEb1 | rcrEbCL | rcrEbIb
  | shlEb1 | shlEbCL | shlEbIb | shrEb1 | shrEbCL | shrEbIb | sarEb1 | sarEbCL | sarEbIb => cases hi; rfl
  | _ => exact absurd hi (Option.some_ne_none _).symm

/-- The operand-size forms likewise. -/
theorem exec_shiftV {i : Instr} {op : Shift} {e : RM Gpr} {c : Count} (hi : shiftV i = some (op, e, c)) :
    exec i s = seqInstr false (shiftEv op.shiftOp e c.read) s := by
  cases i with
  | rolEv1 | rolEvCL | rolEvIb | rorEv1 | rorEvCL | rorEvIb | rclEv1 | rclEvCL | rclEvIb | rcrEv1 | rcrEvCL | rcrEvIb
  | shlEv1 | shlEvCL | shlEvIb | shrEv1 | shrEvCL | shrEvIb | sarEv1 | sarEvCL | sarEvIb => cases hi; rfl
  | _ => exact absurd hi (Option.some_ne_none _).symm

/-- An instruction that does nothing where its masked count is 0 goes on to the next one in either case
(42_logic_shift_bit.md R506). -/
theorem seqInstr_counted {body : M Unit} {k : Nat} {u : State} {t : Tx} (hl : s.ctx.lock = false)
    (h : body (Tx.start s) = if k = 0 then .ok () (Tx.start s) else .ok () { t with cur := u }) :
    seqInstr false body s = .next (s.finish (if k = 0 then s else u)) := by
  split at h
  next hk => exact (if_pos hk).symm ▸ seqInstr_next hl h
  next hk => exact (if_neg hk).symm ▸ seqInstr_next hl h

/-- SHLD and SHRD: nothing with a masked count of 0, else the result and the flags (42_logic_shift_bit.md R514,
R515). -/
theorem doubleShift_run {op : (w : Nat) → BitVec w → BitVec w → Nat → Dword → BitVec w → BitVec w × Flags} {e : RM Gpr}
    {g : Gpr} {count : M Byte} {c : Byte} (h : s.okV s.osz e true = true)
    (hc : count (Tx.start s) = .ok c (Tx.start s)) :
    let r := op s.osz (s.getV s.osz e) (s.gprLow s.osz g) (maskCount c) (s.any 0) ((s.any 1).setWidth s.osz)
    doubleShift op e g count (Tx.start s) =
      if maskCount c = 0 then .ok () (Tx.start s)
      else .ok () { Tx.afterDraws s 2 with cur := ((s.drawn 2).putV e r.1).setFlags r.2 } := by
  refine (withOsz_run _ _).trans <| bind_then (placeV_run s.osz e true (Tx.start s) h) <|
    bind_then (placeW_read s.osz e true (Tx.start s) h) <| bind_then (look_run _ _) <| bind_then hc ?_
  by_cases hz : maskCount c = 0
  · exact (if_then hz rfl).trans (if_pos hz).symm
  · refine (if_else hz ?_).trans (if_neg hz).symm
    refine bind_then (anyD_run (Tx.start s)) ?_
    refine bind_then (anyBits_run s.osz (Tx.afterDraws s 1)) ?_
    exact bind_run_ok (placeW_put s 2 s.osz e _ h)

/-- Settles O26: each form shifts its operand by its masked count. -/
theorem shiftsAndRotates : Obligations.ShiftsAndRotates := by
  refine ⟨fun i op e c s hi hl he => ?_, fun i op e c s hi hl he => ?_, fun s e g ib hl he => ⟨?_, ?_, ?_, ?_⟩⟩
  · have h := seqInstr_counted hl (shiftEb_run (op := op.shiftOp) he (c.read_run (s := s)))
    rw [Shift.shiftOp_eq_result, maskCount_countByte] at h
    exact (exec_shift8 hi).trans h
  · have h := seqInstr_counted hl (shiftEv_run (op := op.shiftOp) he (c.read_run (s := s)))
    rw [Shift.shiftOp_eq_result, maskCount_countByte] at h
    exact (exec_shiftV hi).trans h
  · exact seqInstr_counted hl (doubleShift_run (op := fun _ => shldAlu) he (pure_run ib _))
  · exact seqInstr_counted hl (doubleShift_run (op := fun _ => shldAlu) he (look_run _ _))
  · exact seqInstr_counted hl (doubleShift_run (op := fun _ => shrdAlu) he (pure_run ib _))
  · exact seqInstr_counted hl (doubleShift_run (op := fun _ => shrdAlu) he (look_run _ _))

/-! ## Bit tests -/

/-- The word that holds the tested bit is found, and then read and written (42_logic_shift_bit.md R516). -/
theorem bitPlace_run {w : Nat} {e : RM Gpr} {x : BitIndex} {write : Bool} {t : Tx}
    (h : t.cur.okBit w e x write = true) :
    ∃ p : Place, bitPlace w e x write t = .ok p t ∧ p.read w t = .ok (t.cur.getBitWord w e x) t ∧
      ∀ v : BitVec w, p.write v t = .ok () { t with cur := t.cur.putBitWord e x v } := by
  cases e with
  | reg r => exact ⟨.gpr r, rfl, rfl, fun _ => rfl⟩
  | mem m =>
    obtain ⟨-, -, -, -, hram⟩ := (reachable_iff ..).mp h
    refine ⟨.mem (t.cur.addrs (t.cur.effSeg m) (t.cur.bitOff w m x) (w / 8)), ?_, ?_, fun v => ?_⟩
    · exact bind_then (look_run _ _) <| bind_then (look_run _ _) <| bind_then (look_run _ _) <|
        bind_then (memPlan_run _ _ _ _ t h) rfl
    · exact bind_then (readPhys_run _ t hram) rfl
    · have hlen : (t.cur.addrs (t.cur.effSeg m) (t.cur.bitOff w m x) (w / 8)).length = w / 8 := addrsFrom_length _ _
      refine (writePhys_run _ _ t hram).trans ?_
      rw [hlen]
      rfl

/-- BT writes the flags alone (42_logic_shift_bit.md R517). -/
theorem bitTest_run {e : RM Gpr} {x : BitIndex} (h : s.okBit s.osz e x false = true) :
    let v := s.getBitWord s.osz e x
    let k := bitNumber s.osz (s.bitOffset s.osz x)
    bitTest e x (Tx.start s) = .ok ()
      { Tx.afterDraws s 1 with cur := (s.drawn 1).setFlags (bitFlags (v.getLsbD k) (s.any 0)) } := by
  obtain ⟨p, hp, hread, -⟩ := bitPlace_run (t := Tx.start s) h
  exact (withOsz_run _ _).trans <| bind_then (look_run _ _) <| bind_then hp <| bind_then hread <|
    bind_then (anyD_run _) rfl

/-- Storing draws nothing. -/
theorem putBitWord_any (w : Nat) (e : RM Gpr) (x : BitIndex) (v : BitVec w) (k : Nat) :
    (s.putBitWord e x v).any k = s.any k := by
  cases e with
  | reg r => simp [State.any, State.putBitWord]
  | mem m => simp [State.any, State.putBitWord, State.store]

/-- BTS, BTR and BTC write the word with the bit changed, and the flags (42_logic_shift_bit.md R518 to R520). -/
theorem bitChange_run (change : (w : Nat) → BitVec w → Nat → BitVec w) {e : RM Gpr} {x : BitIndex}
    (h : s.okBit s.osz e x true = true) :
    let v := s.getBitWord s.osz e x
    let k := bitNumber s.osz (s.bitOffset s.osz x)
    bitChange change e x (Tx.start s) = .ok ()
      { Tx.afterDraws s 1 with
        cur := ((s.putBitWord e x (change s.osz v k)).drawn 1).setFlags (bitFlags (v.getLsbD k) (s.any 0)) } := by
  obtain ⟨p, hp, hread, hwrite⟩ := bitPlace_run (t := Tx.start s) h
  refine (withOsz_run _ _).trans <| bind_then (look_run _ _) <| bind_then hp <| bind_then hread <|
    bind_then (hwrite _) <| bind_then (anyD_run _) ?_
  rw [← putBitWord_any]
  rfl

/-- BT tests the bit of its operand and its offset. -/
theorem exec_bitTest {i : Instr} {e : RM Gpr} {x : BitIndex} (hi : bitTestForm i = some (e, x)) :
    exec i s = seqInstr false (bitTest e x) s := by
  cases i with
  | btEvGv | btEvIb => cases hi; rfl
  | _ => exact absurd hi (Option.some_ne_none _).symm

/-- BTS, BTR and BTC change that bit. -/
theorem exec_bitChange {i : Instr} {op : BitOp} {e : RM Gpr} {x : BitIndex} (hi : bitChangeForm i = some (op, e, x)) :
    exec i s = seqInstr (isMem e) (bitChange (fun _ => op.change) e x) s := by
  cases i with
  | btsEvGv | btsEvIb | btrEvGv | btrEvIb | btcEvGv | btcEvIb => cases hi; rfl
  | _ => exact absurd hi (Option.some_ne_none _).symm

/-- Settles O28: each form finds the word of its bit, BT to test it, the three others to change it. -/
theorem bitTests : Obligations.BitTests := by
  refine ⟨fun _ _ => rfl, fun i e x s hi hl h => ?_, fun i op e x s hi hl h => ?_⟩
  · exact (exec_bitTest hi).trans (seqInstr_next hl (bitTest_run h))
  · exact (exec_bitChange hi).trans (seqInstr_done hl (bitChange_run (fun _ => op.change) h))

/-! ## Bit scans -/

section

variable {n i : Nat} {a : BitVec n}

theorem lowestSet_zero : lowestSet (0 : BitVec n) = none := by simp [lowestSet]

theorem highestSet_zero : highestSet (0 : BitVec n) = none := by simp [highestSet]

/-- BSF looks from bit 0 up (42_logic_shift_bit.md R521). -/
theorem lowestSet_eq_some (hi : i < n) (ha : a.getLsbD i = true) (hlow : ∀ j < i, a.getLsbD j = false) :
    lowestSet a = some i :=
  List.find?_range_eq_some.mpr ⟨ha, List.mem_range.mpr hi, fun j hj => by rw [hlow j hj]; rfl⟩

/-- BSR looks from the highest bit down (42_logic_shift_bit.md R522). -/
theorem highestSet_eq_some (hi : i < n) (ha : a.getLsbD i = true) (hhigh : ∀ j, i < j → a.getLsbD j = false) :
    highestSet a = some i := by
  refine List.find?_eq_some_iff_getElem.mpr ⟨ha, n - 1 - i, by simp; omega, by simp; omega, fun j hj => ?_⟩
  rw [List.getElem_reverse, List.getElem_range, hhigh _ (by simp; omega)]
  rfl

end

section

variable {find : (w : Nat) → BitVec w → Option Nat} {g : Gpr} {e : RM Gpr}

/-- A scan of 0 leaves an open destination. -/
theorem bitScan_none (h : s.okV s.osz e false = true) (hf : find s.osz (s.getV s.osz e) = none) :
    bitScan find g e (Tx.start s) = .ok ()
      { Tx.afterDraws s 2 with
        cur := ((s.drawn 2).setGprLow g ((s.any 1).setWidth s.osz)).setFlags (scanFlags true (s.any 0)) } := by
  refine (withOsz_run _ _).trans <| bind_then (readV_run s.osz e (Tx.start s) h) <| bind_then (anyD_run _) ?_
  rw [show find (Tx.start s).cur.osz ((Tx.start s).cur.getV s.osz e) = _ from hf]
  rfl

/-- A scan that finds a bit writes its number. -/
theorem bitScan_some {i : Nat} (h : s.okV s.osz e false = true) (hf : find s.osz (s.getV s.osz e) = some i) :
    bitScan find g e (Tx.start s) = .ok ()
      { Tx.afterDraws s 1 with
        cur := ((s.drawn 1).setGprLow g (BitVec.ofNat s.osz i)).setFlags (scanFlags false (s.any 0)) } := by
  refine (withOsz_run _ _).trans <| bind_then (readV_run s.osz e (Tx.start s) h) <| bind_then (anyD_run _) ?_
  rw [show find (Tx.start s).cur.osz ((Tx.start s).cur.getV s.osz e) = _ from hf]
  rfl

end

/-- Settles O29: the scan finds the set bit that no set bit precedes, and none in 0. -/
theorem bitScans : Obligations.BitScans := by
  refine ⟨fun _ _ => rfl, fun s g e hl h => ⟨fun ha => ⟨?_, ?_⟩, fun i hi hbit => ⟨fun hlow => ?_, fun hhigh => ?_⟩⟩⟩
  · exact seqInstr_next hl (bitScan_none h (ha ▸ lowestSet_zero))
  · exact seqInstr_next hl (bitScan_none h (ha ▸ highestSet_zero))
  · exact seqInstr_next hl (bitScan_some h (lowestSet_eq_some hi hbit hlow))
  · exact seqInstr_next hl (bitScan_some h (highestSet_eq_some hi hbit hhigh))

end Sys2Proof.Machine
end

section
/-! PROOFS. Transfers inside the code segment: branches, CALL and RET, where their target is in the code segment and
where it is not, and what is fetched after them (O35, O36, O37). -/

namespace Sys2Proof.Machine

variable {s : State}

/-! ## How an instruction that may transfer control ends -/

section

variable {lockable : Bool} {body : M Unit}

/-- An instruction without LOCK whose operation succeeds and leaves `u` completes. -/
theorem instr_completes {u b : State} {x : Bool} (hl : s.ctx.lock = false) (h : body (Tx.start s) = .ok () ⟨u, b, x⟩) :
    instr lockable body s = .next (complete s u) :=
  instr_run (fun hc => absurd (hl.symm.trans hc) Bool.false_ne_true) h

/-- An instruction without LOCK whose operation raises an exception: it is taken in the state `b` that stays. -/
theorem instr_trapped {u b : State} {x : Bool} {vec : Byte} {err : Option Word} (hl : s.ctx.lock = false)
    (h : body (Tx.start s) = .error (.raise { vec := vec, err := err }) ⟨u, b, x⟩) :
    instr lockable body s = b.trapped vec err := by
  unfold State.trapped
  exact (instr_raise (fun hc => absurd (hl.symm.trans hc) Bool.false_ne_true) h :)

/-- An instruction without LOCK whose operation the model refuses. -/
theorem instr_refused {t : Tx} {r : Refusal} (hl : s.ctx.lock = false)
    (h : body (Tx.start s) = .error (.refuse r) t) : instr lockable body s = .refused r := by
  have hb : (do need (!s.ctx.lock || lockable) raiseUD; body : M Unit) (Tx.start s) = .error (.refuse r) t :=
    bind_then (need_run (by rw [hl]; rfl)) h
  unfold Tx.start at hb
  unfold instr
  rw [hb]

end

section

variable {α : Type} {t : Tx}

/-- #GP(0), EXT clear. -/
theorem raiseGP0_run (hx : t.ext = false) : (raiseGP0 : M α) t = .error (.raise { vec := 13, err := some 0 }) t := by
  simp [raiseGP0, hx, bitVal]

/-- #SS(0), EXT clear. -/
theorem raiseSS0_run (hx : t.ext = false) : (raiseSS0 : M α) t = .error (.raise { vec := 12, err := some 0 }) t := by
  simp [raiseSS0, hx, bitVal]

end

/-! ## Branches -/

section

variable {off : Dword} {disp : State → Dword} {c : State → Bool} {t : Tx}

/-- A target inside the code segment passes the check (43_control_transfer.md R560). -/
theorem needTarget_run (h : t.cur.inCode off = true) : needTarget off t = .ok () t :=
  bind_then (look_run _ t) (need_run h)

/-- A target past the limit of CS does not. -/
theorem needTarget_fault (hx : t.ext = false) (h : t.cur.inCode off = false) :
    needTarget off t = .error (.raise { vec := 13, err := some 0 }) t :=
  bind_then (look_run _ t) ((need_fail h).trans (raiseGP0_run hx))

/-- A near transfer to an offset, which is cut to the operand size first. -/
theorem nearBranch_run {dst : Dword} (hd : t.cur.truncTarget off = dst) (h : t.cur.inCode dst = true) :
    nearBranch off t = .ok () { t with cur := t.cur.goTo dst } := by
  subst hd
  exact bind_then (look_run _ t) (bind_then (needTarget_run h) rfl)

theorem nearBranch_fault {dst : Dword} (hx : t.ext = false) (hd : t.cur.truncTarget off = dst)
    (h : t.cur.inCode dst = false) : nearBranch off t = .error (.raise { vec := 13, err := some 0 }) t := by
  subst hd
  exact bind_then (look_run _ t) (bind_run_error (needTarget_fault hx h))

/-- A relative transfer that is taken. -/
theorem jumpRel_run (h : t.cur.inCode (t.cur.branchTo disp) = true) :
    jumpRel disp t = .ok () { t with cur := t.cur.goTo (t.cur.branchTo disp) } :=
  bind_then (look_run _ t) (nearBranch_run rfl h)

theorem jumpRel_fault (hx : t.ext = false) (h : t.cur.inCode (t.cur.branchTo disp) = false) :
    jumpRel disp t = .error (.raise { vec := 13, err := some 0 }) t :=
  bind_then (look_run _ t) (nearBranch_fault hx rfl h)

/-- A conditional transfer, taken or not. -/
theorem jumpIf_run (h : t.cur.canBranch (c t.cur) disp = true) :
    jumpIf c disp t = .ok () { t with cur := t.cur.branched (c t.cur) disp } := by
  refine bind_then (look_run _ t) ?_
  unfold State.branched
  unfold State.canBranch at h
  cases hc : c t.cur with
  | true =>
    rw [hc] at h
    exact jumpRel_run h
  | false => rfl

theorem jumpIf_fault (hx : t.ext = false) (hc : c t.cur = true) (h : t.cur.inCode (t.cur.branchTo disp) = false) :
    jumpIf c disp t = .error (.raise { vec := 13, err := some 0 }) t :=
  bind_then (look_run _ t) (if_then hc (jumpRel_fault hx h))

/-- A loop counts down, then branches while the count is not 0 and its condition holds (43_control_transfer.md R565). -/
theorem loopWhile_run {u : State} {taken : Bool} (hu : t.cur.decCount = u) (hc : (u.count != 0 && c u) = taken)
    (h : u.canBranch taken disp = true) :
    loopWhile c disp t = .ok () { t with cur := u.branched taken disp } := by
  subst hu hc
  exact bind_then (upd_run _ t) (jumpIf_run (t := { t with cur := t.cur.decCount }) h)

theorem loopWhile_fault {u : State} (hx : t.ext = false) (hu : t.cur.decCount = u) (hn : u.count ≠ 0) (hc : c u = true)
    (h : u.inCode (u.branchTo disp) = false) :
    loopWhile c disp t = .error (.raise { vec := 13, err := some 0 }) { t with cur := u } := by
  subst hu
  exact bind_then (upd_run _ t) (jumpIf_fault hx (by simpa [hc] using hn) h)

end

/-- Counting down changes a general register alone. -/
theorem decCount_eq (s : State) : ∃ g, s.decCount = { s with gprs := g } := by
  unfold State.decCount
  split
  · exact ⟨_, rfl⟩
  · exact ⟨_, rfl⟩

@[simp] theorem decCount_zf (s : State) : s.decCount.zf = s.zf := by
  obtain ⟨g, hg⟩ := decCount_eq s
  rw [hg]
  rfl

/-- Counting down does not move the target of a branch or the limit of CS. -/
theorem decCount_inCode (s : State) (jb : Byte) :
    s.decCount.inCode (s.decCount.branchTo (ib8 jb)) = s.inCode (s.branchTo (ib8 jb)) := by
  obtain ⟨g, hg⟩ := decCount_eq s
  rw [hg]
  rfl

/-- A value of the operand size is a target that no cut changes. -/
theorem truncTarget_osz (s : State) (v : BitVec s.osz) : s.truncTarget (v.setWidth 32) = v.setWidth 32 := by
  unfold State.truncTarget
  have hv := v.isLt
  revert v
  unfold State.osz
  cases s.o32 with
  | true => exact fun _ _ => rfl
  | false =>
    intro v hv
    refine BitVec.eq_of_toNat_eq ?_
    change v.toNat < 2 ^ 16 at hv
    rw [if_neg Bool.false_ne_true, and_FFFF_toNat, BitVec.toNat_setWidth]
    omega

/-- Each byte that may be fetched after a transfer is read from memory as it stands (20_memory.md R242, R251). -/
theorem fetchByte_after_goTo (s u : State) (dst : Dword) (k : Nat)
    (h : (complete s (u.goTo dst)).mayFetch k = true) :
    fetchByte k (Tx.start (complete s (u.goTo dst))) =
      readCode ((complete s (u.goTo dst)).eip + BitVec.ofNat 32 k) (Tx.start (complete s (u.goTo dst))) := by
  refine fetchByte_run (t := Tx.start (complete s (u.goTo dst))) h ?_
  have hp : (complete s (u.goTo dst)).prefetch = [] := complete_prefetch s (u.goTo dst)
  unfold State.staleCopies Tx.start
  rw [hp]
  rfl

/-- Settles O35: the target is checked, and CS and memory stay. -/
theorem nearBranches : Obligations.NearBranches := by
  refine fun s hl => ⟨fun jb h => ?_, fun jv h => ?_, fun e h hi => ?_, fun cc jb h => ?_,
    fun cc jv h => ?_, fun jb h => ?_, fun jb h => ?_, fun jb h => ?_, fun jb h => ?_, fetchByte_after_goTo s⟩
  · exact instr_completes hl (jumpRel_run (t := Tx.start s) h)
  · exact instr_completes hl (jumpRel_run (t := Tx.start s) h)
  · exact instr_completes hl ((withOsz_run _ _).trans
      (bind_then (readV_run _ e (Tx.start s) h) (nearBranch_run (t := Tx.start s) (truncTarget_osz s _) hi)))
  · exact instr_completes hl (jumpIf_run (t := Tx.start s) h)
  · exact instr_completes hl (jumpIf_run (t := Tx.start s) h)
  · exact instr_completes hl (jumpIf_run (c := fun s => s.count == 0) (t := Tx.start s) h)
  · exact instr_completes hl (loopWhile_run (t := Tx.start s) rfl (Bool.and_true _) h)
  · exact instr_completes hl (loopWhile_run (c := (·.zf)) (t := Tx.start s) rfl (by rw [decCount_zf]) h)
  · exact instr_completes hl (loopWhile_run (c := fun s => !s.zf) (t := Tx.start s) rfl (by rw [decCount_zf]) h)

/-! ## CALL and RET -/

section

variable {off : Dword} {t : Tx}

/-- CALL pushes the offset of the next instruction and goes to its target (43_control_transfer.md R568). -/
theorem nearCall_run {dst : Dword} (hd : t.cur.truncTarget off = dst) (h : t.cur.inCode dst = true)
    (hp : t.cur.canPush t.cur.oszBytes = true) :
    nearCall off t = .ok () { t with cur := (t.cur.pushed t.cur.oszBytes t.cur.nextEip).goTo dst } := by
  subst hd
  refine bind_then (look_run _ t) (bind_then (needTarget_run h) ?_)
  refine bind_then (look_run _ t) (bind_then (look_run _ t) ?_)
  exact bind_then (push_run _ _ t hp) rfl

theorem nearCall_fault {dst : Dword} (hx : t.ext = false) (hd : t.cur.truncTarget off = dst)
    (h : t.cur.inCode dst = false) : nearCall off t = .error (.raise { vec := 13, err := some 0 }) t := by
  subst hd
  exact bind_then (look_run _ t) (bind_run_error (needTarget_fault hx h))

/-- RET pops its target and releases the bytes of its operand (43_control_transfer.md R570). -/
theorem nearReturn_run {extra : Nat} (hp : t.cur.canPop t.cur.oszBytes = true)
    (h : t.cur.inCode (t.cur.top t.cur.oszBytes 32) = true) :
    nearReturn extra t =
      .ok () { t with
        cur := ((t.cur.popped t.cur.oszBytes).goTo (t.cur.top t.cur.oszBytes 32)).releaseStack extra } := by
  refine bind_then (look_run _ t) (bind_then (pop_run _ 32 t hp) (bind_then (needTarget_run ?_) rfl))
  obtain ⟨g, hg⟩ := popped_eq t.cur t.cur.oszBytes
  rw [hg]
  exact h

theorem nearReturn_fault {extra : Nat} (hx : t.ext = false) (hp : t.cur.canPop t.cur.oszBytes = true)
    (h : t.cur.inCode (t.cur.top t.cur.oszBytes 32) = false) :
    nearReturn extra t =
      .error (.raise { vec := 13, err := some 0 }) { t with cur := t.cur.popped t.cur.oszBytes } := by
  refine bind_then (look_run _ t) (bind_then (pop_run _ 32 t hp) (bind_run_error (needTarget_fault hx ?_)))
  obtain ⟨g, hg⟩ := popped_eq t.cur t.cur.oszBytes
  rw [hg]
  exact h

end

/-- Settles O37: the target is checked before CALL pushes and after RET has popped. -/
theorem nearCallsAndReturns : Obligations.NearCallsAndReturns := by
  refine fun s hl => ⟨fun jv h hp => ?_, fun e he h hp => ?_, fun hp h => ⟨?_, fun iw => ?_⟩⟩
  · exact instr_completes hl (bind_then (look_run _ _) (nearCall_run (t := Tx.start s) rfl h hp))
  · exact instr_completes hl ((withOsz_run _ _).trans
      (bind_then (readV_run _ e (Tx.start s) he) (nearCall_run (t := Tx.start s) (truncTarget_osz s _) h hp)))
  · exact instr_completes hl (nearReturn_run (t := Tx.start s) hp h)
  · exact instr_completes hl (nearReturn_run (t := Tx.start s) hp h)

/-! ## Past the limit -/

/-- The first byte of an instruction that execution may not reach (10_state.md R52, 20_memory.md R204). -/
theorem fetchInstr_fault {t : Tx} (hx : t.ext = false) (h : t.cur.mayFetch 0 = false) :
    fetchInstr t = .error (.raise { vec := 13, err := some 0 }) t := by
  have hb : fetchByte 0 t = .error (.raise { vec := 13, err := some 0 }) t :=
    bind_then (look_run _ t) (bind_then (look_run _ t) (need_stop h (raiseGP0_run hx)))
  exact bind_then (look_run _ t) (if_else (by decide) (bind_run_error hb))

/-- An instruction that may not be fetched: the exception is taken before it. -/
theorem runNext_fault (h : s.mayFetch 0 = false) : runNext exec s = s.trapped 13 (some 0) := by
  unfold runNext
  rw [fetchInstr_fault rfl h]
  rfl

/-- A step that would go on past the limit takes the exception instead. -/
theorem step_past_limit (hr : s.resetPin = false) (hrun : s.run = .running) (he : s.pendingEvent = none)
    (h : s.mayFetch 0 = false) :
    step s = ({ s with inhibitSS := false, inhibitSTI := false, trapPending := false } : State).trapped 13 (some 0) := by
  have htrap : (s.trapPending && !s.inhibitSS) = false := by
    cases hp : s.trapPending && !s.inhibitSS with
    | false => rfl
    | true => simp [State.pendingEvent, hrun, hp] at he
  unfold step boundary
  rw [if_neg (by simp [hr]), if_neg (by simp [hrun])]
  simp only [he, htrap]
  split
  · exact runNext_fault h
  · exact absurd (hrun.symm.trans ‹_›) (by decide)
  · exact absurd (hrun.symm.trans ‹_›) (by decide)

/-- Settles O36: each form checks its target before it moves anything that stays, and each byte is checked before it is
fetched. -/
theorem branchPastLimitFaults : Obligations.BranchPastLimitFaults := by
  refine ⟨fun s hl => ⟨fun jb h => ⟨?_, fun cc hc => ?_, fun hc => ?_, fun hn => ?_⟩,
    fun jv h => ⟨?_, ?_, fun cc hc => ?_⟩, fun e he h => ⟨?_, ?_⟩, fun hp h => ⟨?_, fun iw => ?_⟩⟩, fun s hr hrun he h => ?_⟩
  · exact instr_trapped hl (jumpRel_fault (t := Tx.start s) rfl h)
  · exact instr_trapped hl (jumpIf_fault (t := Tx.start s) rfl hc h)
  · exact instr_trapped hl (jumpIf_fault (t := Tx.start s) rfl (by simp [Tx.start, hc]) h)
  · have hd := (decCount_inCode s jb).trans h
    refine ⟨?_, fun hz => ?_, fun hz => ?_⟩
    · exact instr_trapped hl (loopWhile_fault (t := Tx.start s) rfl rfl hn rfl hd)
    · exact instr_trapped hl (loopWhile_fault (t := Tx.start s) rfl rfl hn ((decCount_zf s).trans hz) hd)
    · exact instr_trapped hl (loopWhile_fault (t := Tx.start s) rfl rfl hn (by simp [Tx.start, hz]) hd)
  · exact instr_trapped hl (jumpRel_fault (t := Tx.start s) rfl h)
  · exact instr_trapped hl (bind_then (look_run _ _) (nearCall_fault (t := Tx.start s) rfl rfl h))
  · exact instr_trapped hl (jumpIf_fault (t := Tx.start s) rfl hc h)
  · exact instr_trapped hl ((withOsz_run _ _).trans (bind_then (readV_run _ e (Tx.start s) he)
      (nearBranch_fault (t := Tx.start s) rfl (truncTarget_osz s _) h)))
  · exact instr_trapped hl ((withOsz_run _ _).trans (bind_then (readV_run _ e (Tx.start s) he)
      (nearCall_fault (t := Tx.start s) rfl (truncTarget_osz s _) h)))
  · exact instr_trapped hl (nearReturn_fault (t := Tx.start s) rfl hp h)
  · exact instr_trapped hl (nearReturn_fault (t := Tx.start s) rfl hp h)
  · refine step_past_limit hr hrun he ?_
    unfold State.mayFetch
    rcases h with h | h
    · rw [h]
      rfl
    · simp [h]

end Sys2Proof.Machine
end

section
/-! PROOFS. BOUND, INTO without overflow, ENTER and LEAVE (O41, O42). -/

namespace Sys2Proof.Machine

variable {s : State}

/-! ## BOUND -/

section

variable {g : Gpr} {m : Mem}

/-- The lower bound of BOUND: the first part of its operand (43_control_transfer.md R615). -/
def State.lowerBound (s : State) (m : Mem) : BitVec s.osz := s.load (s.effSeg m) (s.effOff m) (s.osz / 8) s.osz

/-- The upper bound: the part that follows. -/
def State.upperBound (s : State) (m : Mem) : BitVec s.osz :=
  s.load (s.effSeg m) (s.effOff m + BitVec.ofNat 32 (s.osz / 8)) (s.osz / 8) s.osz

/-- The index lies between the bounds, both included. -/
def State.inBounds (s : State) (g : Gpr) (m : Mem) : Prop :=
  (s.lowerBound m).toInt ≤ (s.gprLow s.osz g).toInt ∧ (s.gprLow s.osz g).toInt ≤ (s.upperBound m).toInt

/-- BOUND reads both bounds, then compares. -/
theorem boundBody_run {t : Tx}
    (h : t.cur.reachable (t.cur.effSeg m) (t.cur.effOff m) (2 * (t.cur.osz / 8)) false = true) :
    boundBody g m t =
      need (decide ((t.cur.lowerBound m).toInt ≤ (t.cur.gprLow t.cur.osz g).toInt ∧
        (t.cur.gprLow t.cur.osz g).toInt ≤ (t.cur.upperBound m).toInt)) raiseBR t := by
  have hn : 0 < t.cur.osz / 8 := Nat.div_pos (eight_le_osz t.cur) (by decide)
  refine (withOsz_run _ t).trans ?_
  refine bind_then (readMem_run m _ _ t h (by omega) hn) ?_
  exact bind_then (readPart_run m _ _ _ t h (by omega) hn) (bind_then (look_run _ t) rfl)

/-- An index between the bounds passes. -/
theorem boundBody_pass (h : s.reachable (s.effSeg m) (s.effOff m) (2 * (s.osz / 8)) false = true)
    (hi : s.inBounds g m) : boundBody g m (Tx.start s) = .ok () (Tx.start s) :=
  (boundBody_run (t := Tx.start s) h).trans (need_run (decide_eq_true hi))

/-- Any other is exception 5. -/
theorem boundBody_fault (h : s.reachable (s.effSeg m) (s.effOff m) (2 * (s.osz / 8)) false = true)
    (hi : ¬s.inBounds g m) :
    boundBody g m (Tx.start s) = .error (.raise { vec := 5, err := none }) (Tx.start s) :=
  (boundBody_run (t := Tx.start s) h).trans (need_fail (decide_eq_false hi))

end

/-- Settles O41: both bounds are read, and the index is compared as a signed number. -/
theorem boundAndInto : Obligations.BoundAndInto := by
  refine fun s hl => ⟨fun g m h => ⟨fun hi => ?_, fun hi => ?_⟩, fun hof => ?_⟩
  · exact seqInstr_next hl (boundBody_pass h hi)
  · refine seqInstr_trapped hl (boundBody_fault h fun hin => ?_) rfl
    rcases hi with hi | hi
    · exact absurd hin.1 (not_le.mpr hi)
    · exact absurd hin.2 (not_le.mpr hi)
  · exact instr_completes hl (bind_then (look_run _ _) (if_else (ne_true_of_eq_false hof) (upd_run _ _)))

/-! ## ENTER and LEAVE -/

/-- The display is copied: each frame pointer is read and pushed (43_control_transfer.md R616). -/
theorem copyDisplay_run {narrow : Bool} {ebp : Dword} {n count i : Nat} {t : Tx} {u : State}
    (h : State.display narrow ebp n i count t.cur = some u) :
    copyDisplay narrow ebp n i count t = .ok () { t with cur := u } := by
  induction count generalizing i t with
  | zero =>
    cases h
    rfl
  | succ count ih =>
    unfold State.display at h
    simp only [Option.ite_none_right_eq_some, Bool.and_eq_true] at h
    obtain ⟨⟨hread, hpush⟩, hrest⟩ := h
    refine bind_then (memRead_run .ss _ n 32 t hread) (bind_then (push_run n _ t hpush) ?_)
    exact ih (t := { t with cur := _ }) hrest

/-- What `enterFrames` says: the caller's EBP is pushed, and with a level the display and the new frame pointer are. -/
theorem enterFrames_some {level : Nat} {u : State} (h : s.enterFrames level = some u) :
    s.canPush s.oszBytes = true ∧
      let t := s.pushed s.oszBytes (s.gpr .ebp)
      (level = 0 ∧ u = t ∨ 0 < level ∧
        ∃ v, State.display (!s.o32 || !s.stack32) (s.gpr .ebp) s.oszBytes 1 (level - 1) t = some v ∧
          v.canPush s.oszBytes = true ∧ u = v.pushed s.oszBytes t.sp) := by
  unfold State.enterFrames at h
  simp only [Option.ite_none_left_eq_some, Bool.not_eq_true', Bool.not_eq_false] at h
  obtain ⟨hpush, hframes⟩ := h
  refine ⟨hpush, ?_⟩
  split at hframes
  · exact .inl ⟨‹_›, (Option.some.inj hframes).symm⟩
  · rename_i hz
    split at hframes
    · cases hframes
    · rename_i v hv
      obtain ⟨hp, hu⟩ := Option.ite_none_right_eq_some.mp hframes
      exact .inr ⟨Nat.pos_of_ne_zero hz, v, hv, hp, (Option.some.inj hu).symm⟩

/-- EBP gets the frame pointer and the local bytes are reserved. -/
theorem enterLocals_run {alloc : Word} {u : State} {x : Tx} :
    (do
      if s.o32 then upd (·.setGpr .ebp (s.pushed s.oszBytes (s.gpr .ebp)).sp)
      else upd (·.setGprLow .ebp ((s.pushed s.oszBytes (s.gpr .ebp)).sp.setWidth 16))
      upd fun s => s.setSp (s.gpr .esp - alloc.setWidth 32) : M Unit) { x with cur := u } =
      .ok () { x with cur := s.enterDone u alloc } := by
  unfold State.enterDone
  cases s.o32 with
  | true => rfl
  | false => rfl

/-- ENTER, every access of which can be made. -/
theorem enterBody_run {alloc : Word} {level : Byte} {u : State} (h : s.enterFrames (level.toNat % 32) = some u) :
    enterBody alloc level (Tx.start s) = .ok () { Tx.start s with cur := s.enterDone u alloc } := by
  obtain ⟨hpush, hframes⟩ := enterFrames_some h
  refine bind_then (look_run _ _) <| bind_then (look_run _ _) <| bind_then (look_run _ _) <|
    bind_then (look_run _ _) <| bind_then (push_run _ _ (Tx.start s) hpush) <| bind_then (look_run _ _) ?_
  obtain ⟨hz, rfl⟩ | ⟨hz, v, hv, hp, rfl⟩ := hframes
  · refine if_else (by omega) ?_
    exact enterLocals_run
  · refine if_then hz ?_
    exact bind_then (copyDisplay_run hv) (bind_then (push_run _ _ _ hp) enterLocals_run)

/-- Settles O42: ENTER pushes its frames one by one; LEAVE reads the caller's EBP at the frame pointer. -/
theorem stackFrames : Obligations.StackFrames := by
  refine ⟨fun s alloc level u hl h => ?_, fun s hl => fun h => ?_⟩
  · exact seqInstr_next hl (enterBody_run h)
  · exact seqInstr_next hl ((withOsz_run _ _).trans (bind_then (look_run _ _)
      (bind_then (memRead_run .ss _ _ _ (Tx.start s) h) rfl)))

end Sys2Proof.Machine
end

section
/-! PROOFS. Far JMP, CALL and RETF: how the pointer is read, the checks on a code segment and on a TSS descriptor, the
return address on the stack, and the return at the same level (O38). -/

namespace Sys2Proof.Machine

variable {s : State}

/-! ## The pointer -/

/-- The kind of switch that a far transfer makes. -/
abbrev farKind (call : Bool) : SwitchKind := if call then .call else .jmp

/-- The meaning of a far transfer, by where its pointer is. -/
def FarSrc.body (k : SwitchKind) : FarSrc → M Unit
  | .ptr off sel => farTransfer k sel off
  | .mem m => farIndirect k m

/-- JMP and CALL to a far pointer run the same meaning. -/
theorem exec_farForm {i : Instr} {call : Bool} {src : FarSrc} (hi : farForm i = some (call, src)) :
    exec i s = instr false (src.body (farKind call)) s := by
  cases i with
  | jmpAp | jmpEp | callAp | callEp => cases hi; rfl
  | _ => exact absurd hi (Option.some_ne_none _).symm

/-- A value of 32 bits is the lower part of the one of 48 bits that the same bytes begin. -/
theorem leVal_low (bs : List Byte) : leVal 32 bs = (leVal 48 bs).setWidth 32 :=
  (BitVec.setWidth_ofNat_of_le (by decide) _).symm

/-- The far pointer in memory, as `farIndirect` takes it from one read (43_control_transfer.md R576). -/
theorem farPtr_mem (s : State) (m : Mem) :
    let v : BitVec (s.osz + 16) := s.load (s.effSeg m) (s.effOff m) (s.osz / 8 + 2) (s.osz + 16)
    s.farPtr (.mem m) = ((v.setWidth s.osz).setWidth 32, v.extractLsb' s.osz 16) := by
  have hosz : s.osz = if s.o32 then 32 else 16 := rfl
  unfold State.farPtr
  generalize s.osz = w at hosz ⊢
  cases ho : s.o32 with
  | true =>
    rw [ho, if_pos rfl] at hosz
    subst hosz
    simp only [State.load, State.valueAt, if_true]
    generalize s.addrs _ _ _ = pas
    rfl
  | false =>
    rw [ho, if_neg Bool.false_ne_true] at hosz
    subst hosz
    simp only [State.load, State.valueAt]
    rw [show leVal (16 + 16) _ = _ from leVal_low _, if_neg Bool.false_ne_true]
    generalize leVal 48 _ = v
    refine congrArg₂ Prod.mk (congrArg (BitVec.setWidth 32) ?_) ?_
    · exact (BitVec.setWidth_setWidth_of_le v (by decide)).symm
    · refine BitVec.eq_of_getLsbD_eq fun j hj => ?_
      simp [hj, show 16 + j < 32 by omega]

/-- The pointer is read, then followed. -/
theorem farBody_run {k : SwitchKind} {src : FarSrc} (h : s.okFar src = true) :
    src.body k (Tx.start s) = farTransfer k (s.farPtr src).2 (s.farPtr src).1 (Tx.start s) := by
  cases src with
  | ptr off sel => rfl
  | mem m =>
    rw [farPtr_mem]
    unfold FarSrc.body farIndirect
    exact (withOsz_run _ _).trans (bind_then (readMem_run m _ _ (Tx.start s) h le_rfl (by omega)) rfl)

/-! ## The return address -/

/-- The state after a far CALL has pushed its return address in slots of `n` bytes; a JMP pushes none
(43_control_transfer.md R577, R589). -/
def State.withReturn (s : State) (call : Bool) (n : Nat) : State :=
  if call then (s.drawn 1).pushedAll n [(s.any 0).setWidth 16 ++ s.segs.cs.sel, s.nextEip] else s

/-- Pushing a return address changes memory, the stack pointer and the count of free values alone. -/
theorem withReturn_eq (s : State) (call : Bool) (n : Nat) :
    ∃ m g c, s.withReturn call n = { s with mem := m, gprs := g, freeCtr := c } := by
  cases call with
  | false => exact ⟨_, _, _, rfl⟩
  | true =>
    obtain ⟨m, g, h⟩ := pushedAll_eq (s.drawn 1) n [(s.any 0).setWidth 16 ++ s.segs.cs.sel, s.nextEip]
    exact ⟨m, g, _, h⟩

section

variable {t : Tx}

/-- The slots of a return address. -/
theorem returnAddress_run (t : Tx) :
    returnAddress t = .ok [(t.cur.any 0).setWidth 16 ++ t.cur.segs.cs.sel, t.cur.nextEip]
      { t with cur := t.cur.drawn 1, base := t.base.drawn 1 } :=
  bind_then (look_run _ t) (bind_then (anySel_run _ t) rfl)

/-- A return address that can be pushed. -/
theorem pushReturn_run {call : Bool} {n : Nat} (h : call = true → t.cur.canPushAll n 2 = true) :
    ∃ b, pushReturn (farKind call) n t = .ok () ⟨t.cur.withReturn call n, b, t.ext⟩ := by
  cases call with
  | false => exact ⟨t.base, rfl⟩
  | true => exact ⟨t.base.drawn 1, bind_then (returnAddress_run t) (pushAll_run n _ _ (h rfl))⟩

/-- Plans of pushes, one of which lies outside the stack segment: the stack fault. -/
theorem planAll_fault {n : Nat} {offs : List Dword} (hx : t.ext = false) (hp : t.cur.pg = false)
    (hv : t.cur.segs.ss.valid = true) (ha : t.cur.segs.ss.allows true = true)
    (h : (offs.all fun off => t.cur.segs.ss.inLimit off n) = false) :
    (offs.mapM fun off => memPlan .ss off n true) t = .error (.raise { vec := 12, err := some 0 }) t := by
  induction offs with
  | nil => cases h
  | cons off offs ih =>
    have hcheck : segCheck .ss off n true t = need (t.cur.segs.ss.inLimit off n) raiseSS0 t :=
      bind_then (look_run _ t) (bind_then (look_run _ t)
        (bind_then (need_run hv) (bind_then (need_run (by rw [Bool.or_eq_true]; exact .inl ha)) rfl)))
    rw [List.mapM_cons]
    cases hl : t.cur.segs.ss.inLimit off n with
    | false =>
      refine bind_run_error (bind_run_error (hcheck.trans ?_))
      exact (need_fail hl).trans (raiseSS0_run hx)
    | true =>
      rw [List.all_cons, hl, Bool.true_and] at h
      refine bind_then (a := t.cur.addrs .ss off n) (t' := t) (bind_then (hcheck.trans (need_run hl)) ?_)
        (bind_run_error (ih h))
      exact bind_then (look_run _ t) (bind_then (look_run _ t) (linPlan_run _ n true _ t hp))

/-- A return address for which the stack has no room: the stack fault, and one free value is gone. -/
theorem pushReturn_fault {n : Nat} (hx : t.ext = false) (hp : t.cur.pg = false) (hv : t.cur.segs.ss.valid = true)
    (ha : t.cur.segs.ss.allows true = true)
    (h : ((t.cur.pushOffs n 2).all fun off => t.cur.segs.ss.inLimit off n) = false) :
    pushReturn .call n t =
      .error (.raise { vec := 12, err := some 0 }) { t with cur := t.cur.drawn 1, base := t.base.drawn 1 } :=
  bind_then (returnAddress_run t) (bind_then (look_run _ _)
    (bind_run_error (planAll_fault (t := { t with cur := t.cur.drawn 1, base := t.base.drawn 1 }) hx hp hv ha h)))

/-- The return address is pushed and CS loaded. -/
theorem enterDirect_run {call : Bool} {n : Nat} {dsel sel : Word} {lvl : BitVec 2} {d : Desc} {off : Dword}
    (hd : t.cur.descFor dsel = some d) (b : State) :
    ∃ b', loadCS (withRpl sel lvl) d off ⟨t.cur.withReturn call n, b, t.ext⟩ =
      .ok () ⟨(t.cur.withReturn call n).enterCode sel lvl d off, b', t.ext⟩ := by
  obtain ⟨hp, hk⟩ := descFor_ram hd
  obtain ⟨m, g, c, he⟩ := withReturn_eq t.cur call n
  exact ⟨_, loadCS_run _ d off _ ((congrArg State.pg he).trans hp) ((congrArg (State.kindAt · _) he).trans hk)⟩

end

/-! ## Exceptions of a chain of checks -/

section

variable {α : Type} {t : Tx} {x : Byte × Word}

/-- What is raised is the exception `x` where that is what a chain of checks gives. -/
theorem raised_fault {c : M α} {u : Tx} {o : Option (Byte × Word)} {v : Byte} {code : Word}
    (h : c t = .error (.raise { vec := v, err := some code }) u) (hf : o = some x) (hv : o = some (v, code)) :
    c t = .error (.raise { vec := x.1, err := some x.2 }) u := by
  obtain rfl := Option.some.inj (hf.symm.trans hv)
  exact h

/-- A chain of checks finds no fault where its first one does not and the others do not. -/
theorem ite_some_eq_none {β : Type} {c : Prop} [Decidable c] {a : β} {o : Option β} :
    (if c then some a else o) = none ↔ ¬c ∧ o = none := by
  split <;> simp [*]

/-- Two checks with the same exception are one. -/
theorem need_and {a b : Bool} {v : Byte} {sel : Word} {f : Unit → M α} {r : EStateM.Result Stop Tx α}
    (h : (need (a && b) (raiseSel v sel) >>= f) t = r) :
    (need a (raiseSel v sel) >>= fun _ => need b (raiseSel v sel) >>= f) t = r := by
  subst h
  cases a with
  | false => rfl
  | true => rfl

end

/-! ## Code segments -/

section

variable {sel dsel : Word} {off : Dword} {d : Desc} {t : Tx} {k : SwitchKind} {x : Byte × Word}

/-- The exception of a far JMP or CALL to the code segment `d` (43_control_transfer.md R585). -/
def State.codeFault (s : State) (sel : Word) (d : Desc) (off : Dword) : Option (Byte × Word) :=
  if s.codeDenied sel d then some (13, selCode sel)
  else if !d.p then some (11, selCode sel)
  else if d.limit32.toNat < off.toNat then some (13, 0)
  else none

theorem codeFault_none : s.codeFault sel d off = none ↔
    s.codeDenied sel d = false ∧ d.p = true ∧ off.toNat ≤ d.limit32.toNat := by
  simp [State.codeFault, ite_some_eq_none]

/-- The check of the level that `codeDirect` makes, as one. -/
theorem codeDirect_eq :
    codeDirect k sel d off t =
      (do need (!t.cur.codeDenied sel d) (raiseGP sel)
          need d.p (raiseNP sel)
          need (!decide (d.limit32.toNat < off.toNat)) raiseGP0
          pushReturn k (← look (·.oszBytes))
          loadCS (withRpl sel t.cur.cpl) d off : M Unit) t := by
  refine bind_then (look_run _ t) ?_
  unfold State.codeDenied
  rw [← le_as_not_lt]
  cases d.conforming with
  | true => rw [if_pos rfl, if_pos rfl, ← le_as_not_lt]
  | false =>
    rw [if_neg Bool.false_ne_true, if_neg Bool.false_ne_true, Bool.not_or, ← le_as_not_lt]
    refine need_and ?_
    simp only [bne, Bool.not_not]
    rfl

/-- A code segment that may be entered: the return address, then CS. -/
theorem codeDirect_run (hf : t.cur.codeFault sel d off = none) :
    codeDirect k sel d off t = (do pushReturn k t.cur.oszBytes; loadCS (withRpl sel t.cur.cpl) d off : M Unit) t := by
  obtain ⟨hden, hp, hlim⟩ := codeFault_none.mp hf
  rw [codeDirect_eq]
  exact bind_then (need_run (by rw [hden]; rfl)) (bind_then (need_run hp)
    (bind_then (need_run (by simpa using hlim)) (bind_then (look_run _ t) rfl)))

theorem codeDirect_fault (hx : t.ext = false) (hf : t.cur.codeFault sel d off = some x) :
    codeDirect k sel d off t = .error (.raise { vec := x.1, err := some x.2 }) t := by
  rw [codeDirect_eq]
  refine need_or_later (fun h => raiseSel_fault hx hf ?_) fun hden =>
    need_or_later (fun h => raiseSel_fault hx hf ?_) fun hp =>
    need_or_later (fun h => raised_fault (raiseGP0_run hx) hf ?_) fun hlim => absurd hf ?_
  all_goals simp_all [State.codeFault]

end

/-! ## TSS descriptors -/

section

variable {lockable : Bool} {body : M Unit} {nsel sel : Word} {d : Desc} {k : SwitchKind} {eip flags : Dword} {t : Tx}
  {x : Byte × Word}

/-- An instruction whose operation comes to a task switch that gets past its commit point: it completes in the new task,
or the exception of a check is taken there (47_multitasking.md R870, R876). -/
theorem instr_switches (hl : s.ctx.lock = false)
    (hb : body (Tx.start s) = taskSwitch nsel d k eip flags none t) (hx : t.ext = false)
    (hc : t.cur.canSwitch d k = true) :
    (∀ v, t.cur.switchTo nsel d k eip flags = .ok v →
      instr lockable body s = .next (complete s (v.taskTrap (t.cur.tssImage d.base)))) ∧
    ∀ w vec code, t.cur.switchTo nsel d k eip flags = .error (w, vec, code) → (∀ q, w.tableRam q = true) →
      instr lockable body s = w.trapped vec (some code) := by
  refine ⟨fun v hv => ?_, fun w vec code hw hq => ?_⟩
  · obtain ⟨b, hrun⟩ := taskSwitch_ok (err := none) hc hv rfl
    exact instr_completes hl (hb.trans hrun)
  · exact instr_trapped hl (hb.trans (taskSwitch_error hc hw hx hq))

/-- A new TSS that is too short (47_multitasking.md R871). -/
theorem taskSwitch_short {err : Option Word} (hx : t.ext = false) (h : d.limit32.toNat < 103) :
    taskSwitch nsel d k eip flags err t = .error (.raise { vec := 10, err := some (selCode nsel) }) t :=
  bind_run_error (need_stop (by simpa using h) (raiseSel_run 10 nsel hx))

/-- The check of the levels, as Safety.lean puts its failure. -/
theorem mayUse_eq (s : State) (d : Desc) (sel : Word) : s.mayUse d sel = !s.useDenied sel d := by
  simp only [State.mayUse, State.useDenied, ← decide_not, not_or, not_lt]

/-- The exception of a far JMP or CALL to the 386 TSS descriptor `d` (47_multitasking.md R866, R871). -/
def State.tssFault (s : State) (sel : Word) (d : Desc) : Option (Byte × Word) :=
  if ti sel || s.useDenied sel d || d.typ == 11 then some (13, selCode sel)
  else if !d.p then some (11, selCode sel)
  else if d.limit32.toNat < 103 then some (10, selCode sel)
  else none

/-- What `isFreeTss` says. -/
theorem isFreeTss_iff : d.isFreeTss = true ↔ d.s = false ∧ d.typ = 9 ∧ d.p = true := by
  simp [Desc.isFreeTss, and_assoc]

/-- A transfer to a free TSS switches to it. -/
theorem toTss_run (hti : ti sel = false) (hu : t.cur.useDenied sel d = false) (hf : d.isFreeTss = true) :
    toTss k sel d t = taskSwitch sel d k t.cur.nextEip t.cur.eflags none t := by
  obtain ⟨-, htyp, hp⟩ := isFreeTss_iff.mp hf
  refine bind_then (need_run (by rw [hti]; rfl)) (bind_then (look_run _ t) ?_)
  refine bind_then (need_run (by rw [mayUse_eq, hu]; rfl)) (bind_then (need_run (by rw [htyp]; rfl)) ?_)
  exact bind_then (need_run hp) (bind_then (look_run _ t) (bind_then (look_run _ t) rfl))

theorem toTss_fault (hx : t.ext = false) (ht : d.typ = 9 ∨ d.typ = 11) (hf : t.cur.tssFault sel d = some x) :
    toTss k sel d t = .error (.raise { vec := x.1, err := some x.2 }) t := by
  refine need_or_later (fun h => raiseSel_fault hx hf ?_) fun hti => bind_then (look_run _ t) <|
    need_or_later (fun h => raiseSel_fault hx hf ?_) fun huse =>
    need_or_later (fun h => raiseSel_fault hx hf ?_) fun htyp =>
    need_or_later (fun h => raiseSel_fault hx hf ?_) fun hp => bind_then (look_run _ t) <| bind_then (look_run _ t) ?_
  case refine_5 =>
    by_cases hlim : d.limit32.toNat < 103
    · refine raised_fault (taskSwitch_short hx hlim) hf ?_
      simp_all [State.tssFault, mayUse_eq]
    · simp_all [State.tssFault, mayUse_eq]
  case refine_3 =>
    have hbusy : d.typ = 11 := ht.resolve_left (by simpa using h)
    simp [State.tssFault, hbusy]
  all_goals simp_all [State.tssFault, mayUse_eq]

end

/-! ## What a selector names -/

section

variable {sel : Word} {off : Dword} {d : Desc} {t : Tx} {k : SwitchKind} {x : Byte × Word}

/-- A far transfer in protected mode to what a system descriptor names (43_control_transfer.md R575). -/
def farSystem (k : SwitchKind) (sel : Word) (d : Desc) : M Unit :=
  match d.typ.toNat with
  | 12 => throughGate k sel d
  | 5 => toTaskGate k sel d
  | 9 | 11 => toTss k sel d
  | 1 | 3 | 4 => refuse .descriptor286
  | _ => raiseGP sel

theorem farSystem_gate (h : d.typ = 12) : farSystem k sel d = throughGate k sel d := by
  unfold farSystem
  rw [h]
  rfl

theorem farSystem_taskGate (h : d.typ = 5) : farSystem k sel d = toTaskGate k sel d := by
  unfold farSystem
  rw [h]
  rfl

theorem farSystem_tss (h : d.typ = 9 ∨ d.typ = 11) : farSystem k sel d = toTss k sel d := by
  unfold farSystem
  rcases h with h | h
  · rw [h]; rfl
  · rw [h]; rfl

theorem farSystem_286 (h : d.typ = 1 ∨ d.typ = 3 ∨ d.typ = 4) : farSystem k sel d = refuse .descriptor286 := by
  unfold farSystem
  rcases h with h | h | h
  · rw [h]; rfl
  · rw [h]; rfl
  · rw [h]; rfl

theorem farSystem_other (h1 : ¬(d.typ = 9 ∨ d.typ = 11))
    (h2 : ¬(d.typ = 1 ∨ d.typ = 3 ∨ d.typ = 4 ∨ d.typ = 5 ∨ d.typ = 12)) : farSystem k sel d = raiseGP sel := by
  have htyp : d.typ = BitVec.ofNat 4 d.typ.toNat := by simp
  unfold farSystem
  split
  case h_8 => rfl
  all_goals
    rename_i hn
    rw [hn] at htyp
    simp [htyp] at h1 h2

theorem farProt_code (hn : isNull sel = false) (hd : t.cur.descFor sel = some d) (hc : d.isCode = true) :
    farProt k sel off t = codeDirect k sel d off t :=
  bind_then (need_run (by rw [hn]; rfl)) (bind_then (fetchDescOr_run hd) (if_then hc rfl))

theorem farProt_system (hn : isNull sel = false) (hd : t.cur.descFor sel = some d) (hs : d.s = false) :
    farProt k sel off t = farSystem k sel d t :=
  bind_then (need_run (by rw [hn]; rfl)) <| bind_then (fetchDescOr_run hd) <|
    if_else (by simp [Desc.isCode, hs]) <| if_else (by simp [hs]) rfl

/-- The exception of a far transfer, where its selector names a descriptor. -/
theorem farFault_some (hn : isNull sel = false) (hd : s.descFor sel = some d) :
    s.farFault sel off =
      if d.isCode then s.codeFault sel d off
      else if d.s then some (13, selCode sel)
      else if d.typ = 9 ∨ d.typ = 11 then s.tssFault sel d
      else if d.typ = 1 ∨ d.typ = 3 ∨ d.typ = 4 ∨ d.typ = 5 ∨ d.typ = 12 then none
      else some (13, selCode sel) := by
  unfold State.farFault
  rw [hn, hd]
  rfl

/-- A far transfer that a check refuses before anything is pushed. -/
theorem farProt_fault (hx : t.ext = false) (hr : t.cur.tableRam sel = true) (hf : t.cur.farFault sel off = some x) :
    farProt k sel off t = .error (.raise { vec := x.1, err := some x.2 }) t := by
  cases hn : isNull sel with
  | true =>
    exact need_stop (by rw [hn]; rfl) (raised_fault (raiseGP0_run hx) hf (by simp [State.farFault, hn]))
  | false =>
    cases hd : t.cur.descFor sel with
    | none =>
      refine bind_then (need_run (by rw [hn]; rfl)) (bind_run_error ((fetchDescOr_none hr hd).trans ?_))
      exact raiseSel_fault hx hf (by simp [State.farFault, hn, hd])
    | some d =>
      rw [farFault_some hn hd] at hf
      split at hf
      · rw [farProt_code hn hd ‹_›]
        exact codeDirect_fault hx hf
      split at hf
      · rename_i hcode hs
        exact bind_then (need_run (by rw [hn]; rfl)) <| bind_then (fetchDescOr_run hd) <| if_else hcode <|
          if_then hs (raiseSel_fault hx hf rfl)
      rename_i hs
      rw [farProt_system hn hd (Bool.not_eq_true _ ▸ hs)]
      split at hf
      · rw [farSystem_tss ‹_›]
        exact toTss_fault hx ‹_› hf
      split at hf
      · cases hf
      · rw [farSystem_other ‹_› ‹_›]
        exact raiseSel_fault hx hf rfl

theorem farTransfer_prot (h : t.cur.pe = true) : farTransfer k sel off t = farProt k sel off t :=
  bind_then (look_run _ t) (if_then h rfl)

/-- A far transfer through a selector that names a system descriptor. -/
theorem farTransfer_system (hpe : t.cur.pe = true) (hn : isNull sel = false) (hd : t.cur.descFor sel = some d)
    (hs : d.s = false) : farTransfer k sel off t = farSystem k sel d t :=
  (farTransfer_prot hpe).trans (farProt_system hn hd hs)

theorem farTransfer_real (h : t.cur.pe = false) : farTransfer k sel off t = farReal k sel off t :=
  bind_then (look_run _ t) (if_else (ne_true_of_eq_false h) rfl)

theorem farTransfer_past (hx : t.ext = false) (hpe : t.cur.pe = false) (h : t.cur.inCode off = false) :
    farTransfer k sel off t = .error (.raise { vec := 13, err := some 0 }) t :=
  (farTransfer_real hpe).trans (bind_run_error (needTarget_fault hx h))

end

/-! ## Far JMP and CALL -/

section

variable {sel : Word} {off : Dword} {call : Bool} {t : Tx}

/-- What `canFar` says of a JMP and of the stack of a CALL. -/
theorem canFar_iff : s.canFar call sel off = true ↔
    (call = true → s.canPushAll s.oszBytes 2 = true) ∧ s.canFar false sel off = true := by
  cases call <;> simp [State.canFar]

theorem canFar_real (hpe : s.pe = false) : s.canFar false sel off = s.inCode off := by simp [State.canFar, hpe]

theorem canFar_prot (hpe : s.pe = true) (h : s.canFar false sel off = true) :
    isNull sel = false ∧ ∃ d, s.descFor sel = some d ∧ d.isCode = true ∧ s.codeFault sel d off = none := by
  simp only [State.canFar, hpe, Bool.not_false, Bool.not_true, Bool.true_or, Bool.true_and, Bool.false_eq_true, if_false,
    Bool.and_eq_true, Bool.not_eq_true', Option.any_eq_true, decide_eq_true_eq, State.codeFits] at h
  obtain ⟨hn, d, hd, ⟨⟨hcode, hp⟩, hlevel⟩, hoff⟩ := h
  refine ⟨hn, d, hd, hcode, codeFault_none.mpr ⟨?_, hp, hoff⟩⟩
  unfold State.codeDenied
  split at hlevel
  · rename_i hc
    simpa [hc] using hlevel
  · rename_i hc
    simpa [hc] using hlevel

theorem farDone_real (hpe : s.pe = false) :
    s.farDone call sel off = (s.withReturn call s.oszBytes).enterReal sel off := by
  simp [State.farDone, hpe]
  rfl

theorem farDone_prot {d : Desc} (hpe : s.pe = true) (hd : s.descFor sel = some d) :
    s.farDone call sel off = (s.withReturn call s.oszBytes).enterCode sel s.cpl d off := by
  simp [State.farDone, hpe, hd]
  rfl

/-- A far transfer whose checks pass pushes its return address, and loads CS and EIP. -/
theorem farTransfer_checked (h : t.cur.canFar false sel off = true) :
    ∃ enter : M Unit,
      (∀ k, farTransfer k sel off t = (pushReturn k t.cur.oszBytes >>= fun _ => enter) t) ∧
        ∀ call b, ∃ b', enter ⟨t.cur.withReturn call t.cur.oszBytes, b, t.ext⟩ =
          .ok () ⟨t.cur.farDone call sel off, b', t.ext⟩ := by
  cases hpe : t.cur.pe with
  | false =>
    rw [canFar_real hpe] at h
    refine ⟨upd (·.enterReal sel off), fun k => ?_, fun call b => ⟨b, ?_⟩⟩
    · rw [farTransfer_real hpe]
      exact bind_then (needTarget_run h) (bind_then (look_run _ t) rfl)
    · rw [farDone_real hpe]
      exact upd_run _ _
  | true =>
    obtain ⟨hn, d, hd, hcode, hf⟩ := canFar_prot hpe h
    refine ⟨loadCS (withRpl sel t.cur.cpl) d off, fun k => ?_, fun call b => ?_⟩
    · rw [farTransfer_prot hpe, farProt_code hn hd hcode]
      exact codeDirect_run hf
    · rw [farDone_prot hpe hd]
      exact enterDirect_run hd b

/-- A far JMP or CALL that can be made. -/
theorem farTransfer_run (h : t.cur.canFar call sel off = true) :
    ∃ b, farTransfer (farKind call) sel off t = .ok () ⟨t.cur.farDone call sel off, b, t.ext⟩ := by
  obtain ⟨hpush, hchecks⟩ := canFar_iff.mp h
  obtain ⟨enter, hrun, hend⟩ := farTransfer_checked hchecks
  obtain ⟨b, hb⟩ := pushReturn_run hpush
  obtain ⟨b', hb'⟩ := hend call b
  exact ⟨b', (hrun _).trans (bind_then hb hb')⟩

/-- A far CALL whose stack has no room. -/
theorem farCall_noRoom (hx : t.ext = false) (h : t.cur.canFar false sel off = true) (hp : t.cur.pg = false)
    (hv : t.cur.segs.ss.valid = true) (ha : t.cur.segs.ss.allows true = true)
    (hroom : ((t.cur.pushOffs t.cur.oszBytes 2).all fun p => t.cur.segs.ss.inLimit p t.cur.oszBytes) = false) :
    farTransfer .call sel off t =
      .error (.raise { vec := 12, err := some 0 }) { t with cur := t.cur.drawn 1, base := t.base.drawn 1 } := by
  obtain ⟨enter, hrun, -⟩ := farTransfer_checked h
  exact (hrun .call).trans (bind_run_error (pushReturn_fault hx hp hv ha hroom))

end

/-! ## The return address on the stack -/

/-- Releasing bytes of the stack changes a general register alone. -/
theorem releaseStack_eq (s : State) (n : Nat) : ∃ g, s.releaseStack n = { s with gprs := g } := setSp_eq s _

section

variable {sel : Word} {off : Dword} {d : Desc} {t : Tx} {x : Byte × Word}

/-- The faults of a return: those of its selector, which `returnFault` gives at offset 0, then that of its offset. -/
theorem returnFault_eq (s : State) (sel : Word) (off : Dword) :
    s.returnFault sel off = (s.returnFault sel 0).or ((s.descFor sel).bind fun d =>
      if rpl sel = s.cpl ∧ d.limit32.toNat < off.toNat then some (13, 0) else none) := by
  unfold State.returnFault
  split
  · rfl
  split
  · rfl
  cases s.descFor sel with
  | none => rfl
  | some d =>
    simp only [Option.bind_some]
    split
    · rfl
    split
    · rfl
    · simp

theorem returnFault_zero (h : s.returnFault sel off = none) : s.returnFault sel 0 = none := by
  rw [returnFault_eq] at h
  exact (Option.or_eq_none_iff.mp h).1

theorem returnFault_cases (h : s.returnFault sel off = some x) :
    s.returnFault sel 0 = some x ∨ s.returnFault sel 0 = none ∧
      ∃ d, s.descFor sel = some d ∧ rpl sel = s.cpl ∧ d.limit32.toNat < off.toNat ∧ x = (13, 0) := by
  rw [returnFault_eq] at h
  obtain h | ⟨hz, h⟩ := Option.or_eq_some_iff.mp h
  · exact .inl h
  · obtain ⟨d, hd, h⟩ := Option.bind_eq_some_iff.mp h
    obtain ⟨⟨hlvl, hlim⟩, hx⟩ := Option.ite_none_right_eq_some.mp h
    exact .inr ⟨hz, d, hd, hlvl, hlim, (Option.some.inj hx).symm⟩

/-- The faults of the selector of a return, where it names a descriptor. -/
theorem returnFault_some (hd : s.descFor sel = some d) :
    s.returnFault sel 0 =
      if (rpl sel).toNat < s.cpl.toNat then some (13, selCode sel)
      else if isNull sel then some (13, 0)
      else if !d.isCode || returnDenied sel d then some (13, selCode sel)
      else if !d.p then some (11, selCode sel)
      else none := by
  simp [State.returnFault, hd]

/-- What `returnFault` says of the selector where it lets a return go on. -/
theorem returnFault_none (hd : s.descFor sel = some d) : s.returnFault sel 0 = none ↔
    s.cpl.toNat ≤ (rpl sel).toNat ∧ isNull sel = false ∧ d.isCode = true ∧ returnDenied sel d = false ∧ d.p = true := by
  rw [returnFault_some hd]
  simp [ite_some_eq_none, and_assoc]

/-- What a code segment must allow, as the two checks that `returnCS` makes (43_control_transfer.md R595). -/
theorem returnDenied_iff : returnDenied sel d = false ↔
    (d.conforming || d.dpl == rpl sel) = true ∧ (!d.conforming || decide (d.dpl.toNat ≤ (rpl sel).toNat)) = true := by
  unfold returnDenied
  cases d.conforming <;> simp

/-- The selector of a return address that passes its checks. -/
theorem returnCS_run (hd : t.cur.descFor sel = some d) (hf : t.cur.returnFault sel 0 = none) :
    returnCS sel t = .ok d t := by
  obtain ⟨hlvl, hn, hcode, hden, hp⟩ := (returnFault_none hd).mp hf
  obtain ⟨hsame, hinner⟩ := returnDenied_iff.mp hden
  refine bind_then (look_run _ t) (bind_then (need_run (decide_eq_true hlvl)) ?_)
  refine bind_then (need_run (by rw [hn]; rfl)) (bind_then (fetchDescOr_run hd) ?_)
  exact bind_then (need_run hcode) <| bind_then (need_run hsame) <| bind_then (need_run hinner) <|
    bind_then (need_run hp) rfl

/-- The selector of a return address that a check refuses. -/
theorem returnCS_fault (hx : t.ext = false) (hr : t.cur.tableRam sel = true) (hf : t.cur.returnFault sel 0 = some x) :
    returnCS sel t = .error (.raise { vec := x.1, err := some x.2 }) t := by
  refine bind_then (look_run _ t) <|
    need_or_later (fun h => raiseSel_fault hx hf ?_) fun hlvl =>
    need_or_later (fun h => raised_fault (raiseGP0_run hx) hf ?_) fun hn => ?_
  case refine_3 =>
    cases hd : t.cur.descFor sel with
    | none =>
      refine bind_run_error ((fetchDescOr_none hr hd).trans (raiseSel_fault hx hf ?_))
      simp_all [State.returnFault]
    | some d =>
      rw [returnFault_some hd, if_neg (by simpa using hlvl)] at hf
      refine bind_then (fetchDescOr_run hd) <|
        need_or_later (fun h => raiseSel_fault hx hf ?_) fun hcode =>
        need_or_later (fun h => raiseSel_fault hx hf ?_) fun hsame =>
        need_or_later (fun h => raiseSel_fault hx hf ?_) fun hinner =>
        need_or_later (fun h => raiseSel_fault hx hf ?_) fun hp => absurd hf ?_
      case refine_2 | refine_3 =>
        have hden : returnDenied sel d = true := by
          rw [← Bool.not_eq_false, returnDenied_iff]
          simp [h]
        simp_all
      case refine_4 | refine_5 =>
        have hden : returnDenied sel d = false := returnDenied_iff.mpr ⟨hsame, hinner⟩
        simp_all
      case refine_1 => simp_all
  all_goals simp_all [State.returnFault]

end

/-! ## RETF -/

section

variable {sel : Word} {off : Dword} {d : Desc} {extra : Nat}

theorem returnTo_real (hpe : s.pe = false) : s.returnTo sel off = s.enterReal sel off := by
  simp [State.returnTo, hpe]

theorem returnTo_prot (hpe : s.pe = true) (hd : s.descFor sel = some d) :
    s.returnTo sel off = ((s.accessed d).setSeg .cs (d.toSeg sel)).goTo off := by
  simp [State.returnTo, hpe, hd]

/-- Releasing stack leaves the mode, the descriptors and paging as they are. -/
theorem releaseStack_table (s : State) (n : Nat) (sel : Word) :
    (s.releaseStack n).pe = s.pe ∧ (s.releaseStack n).descFor sel = s.descFor sel ∧ (s.releaseStack n).pg = s.pg := by
  obtain ⟨g, hg⟩ := releaseStack_eq s n
  rw [hg]
  exact ⟨rfl, rfl, rfl⟩

/-- A return at the same level, from what `canReturnTo` says (43_control_transfer.md R595). -/
theorem canReturnTo_prot (hpe : s.pe = true) (h : s.canReturnTo sel off = true) :
    ∃ d, s.descFor sel = some d ∧ s.returnFault sel 0 = none ∧ rpl sel = s.cpl ∧ off.toNat ≤ d.limit32.toNat := by
  simp only [State.canReturnTo, hpe, Bool.not_true, Bool.false_eq_true, if_false, Option.any_eq_true, Bool.and_eq_true,
    decide_eq_true_eq, State.returnFits, beq_iff_eq, Bool.not_eq_true'] at h
  obtain ⟨d, hd, ⟨⟨⟨⟨hlvl, hn⟩, hcode⟩, hp⟩, hfits⟩, hoff⟩ := h
  refine ⟨d, hd, (returnFault_none hd).mpr ⟨hlvl ▸ le_rfl, hn, hcode, ?_, hp⟩, hlvl, hoff⟩
  unfold returnDenied
  split at hfits <;> simp_all

/-- The offset that RETF and IRET pop. -/
def State.retOff (s : State) : Dword := s.slot 0 s.oszBytes 32

/-- The selector that they pop in protected mode, and RETF in real-address mode. -/
def State.retSel (s : State) : Word := s.slot s.oszBytes 2 16

/-- The return to an outer level, its stack `up` bytes above the stack pointer, and what `f` does there
(43_control_transfer.md R596). -/
def thenOuter (s : State) (up extra : Nat) (d : Desc) (f : M Unit) : M Unit := do
  let k ← returnSS up s.oszBytes s.retSel
  need (decide (s.retOff.toNat ≤ d.limit32.toNat)) raiseGP0
  leaveInner s.retSel d s.retOff k s.oszBytes extra
  f

/-- RETF in protected mode from where the code segment has passed its checks (43_control_transfer.md R595, R596). -/
def farReturnTail (s : State) (extra : Nat) (d : Desc) : M Unit :=
  if (rpl s.retSel).toNat ≤ s.cpl.toNat then do
    need (decide (s.retOff.toNat ≤ d.limit32.toNat)) raiseGP0
    upd (·.releaseStack (2 * s.oszBytes + extra))
    loadCS s.retSel d s.retOff
  else thenOuter s (2 * s.oszBytes + extra) extra d (upd (·.cleanSegs))

theorem retfDone_eq (s : State) (extra : Nat) :
    s.retfDone extra = (s.releaseStack (2 * s.oszBytes + extra)).returnTo s.retSel s.retOff := rfl

theorem holdsReturn_prot (hpe : s.pe = true) : s.holdsReturn = s.holdsSlots 0 s.oszBytes 2 := if_pos hpe

theorem holdsReturn_real (hpe : s.pe = false) :
    s.holdsReturn = (s.holdsSlots 0 s.oszBytes 1 && s.holdsSlots s.oszBytes 2 1) := if_neg (ne_true_of_eq_false hpe)

/-- A stack that does not hold the return address (43_control_transfer.md R580, R595). -/
theorem farReturn_noFrame (h : s.holdsReturn = false) :
    farReturn extra (Tx.start s) = .error (.raise { vec := 12, err := some 0 }) (Tx.start s) := by
  have hfail {k n c : Nat} (h : s.holdsSlots k n c = false) :
      needStack k n c (Tx.start s) = .error (.raise { vec := 12, err := some 0 }) (Tx.start s) :=
    (needStack_fail h).trans (raiseSS0_run rfl)
  refine bind_then (look_run _ _) ?_
  cases hpe : s.pe with
  | true =>
    rw [holdsReturn_prot hpe] at h
    exact if_then hpe (bind_then (look_run _ _) (bind_then (look_run _ _) (bind_run_error (hfail h))))
  | false =>
    rw [holdsReturn_real hpe, Bool.and_eq_false_imp] at h
    refine if_else (ne_true_of_eq_false hpe) (bind_then (look_run _ _) ?_)
    cases h1 : s.holdsSlots 0 s.oszBytes 1 with
    | false => exact bind_run_error (hfail h1)
    | true => exact bind_then (needStack_run h1) (bind_run_error (hfail (h h1)))

section

variable (hh : s.holdsReturn = true) (h0 : s.canSlot 0 s.oszBytes = true) (hn : s.canSlot s.oszBytes 2 = true)

include hh h0 hn

/-- RETF in protected mode reads the return address, then checks it. -/
theorem farReturn_prot (hpe : s.pe = true) :
    farReturn extra (Tx.start s) = (returnCS s.retSel >>= farReturnTail s extra) (Tx.start s) := by
  rw [holdsReturn_prot hpe] at hh
  refine bind_then (look_run _ _) (if_then hpe (bind_then (look_run _ _) (bind_then (look_run _ _) ?_)))
  exact bind_then (needStack_run hh) (bind_then (readStack_run h0) (bind_then (readStack_run hn) rfl))

/-- RETF in real-address mode (43_control_transfer.md R580). -/
theorem farReturn_real (hpe : s.pe = false) :
    farReturn extra (Tx.start s) =
      (do needTarget s.retOff
          upd (·.releaseStack (2 * s.oszBytes + extra))
          upd (·.enterReal s.retSel s.retOff) : M Unit) (Tx.start s) := by
  rw [holdsReturn_real hpe, Bool.and_eq_true] at hh
  refine bind_then (look_run _ _) (if_else (ne_true_of_eq_false hpe) (bind_then (look_run _ _) ?_))
  refine bind_then (needStack_run hh.1) (bind_then (needStack_run hh.2) ?_)
  exact bind_then (readStack_run h0) (bind_then (readStack_run hn) rfl)

theorem farReturn_past (hpe : s.pe = false) (hi : s.inCode s.retOff = false) :
    farReturn extra (Tx.start s) = .error (.raise { vec := 13, err := some 0 }) (Tx.start s) :=
  (farReturn_real hh h0 hn hpe).trans (bind_run_error (needTarget_fault rfl hi))

/-- A return address that a check refuses, at the same level or an outer one. -/
theorem farReturn_fault {x : Byte × Word} (hpe : s.pe = true) (hr : s.tableRam s.retSel = true)
    (hf : s.returnFault s.retSel s.retOff = some x) :
    farReturn extra (Tx.start s) = .error (.raise { vec := x.1, err := some x.2 }) (Tx.start s) := by
  rw [farReturn_prot hh h0 hn hpe]
  obtain hsel | ⟨hsel, d, hd, hlvl, hlim, rfl⟩ := returnFault_cases hf
  · exact bind_run_error (returnCS_fault rfl hr hsel)
  · exact bind_then (returnCS_run hd hsel) (if_then (by rw [hlvl]) (need_stop (by simpa using hlim) (raiseGP0_run rfl)))

/-- A return that can be made, in real-address mode or to the same level. -/
theorem farReturn_run (h : s.canReturnTo s.retSel s.retOff = true) :
    ∃ b, farReturn extra (Tx.start s) = .ok () ⟨s.retfDone extra, b, false⟩ := by
  cases hpe : s.pe with
  | false =>
    simp only [State.canReturnTo, hpe, Bool.not_false, if_true] at h
    refine ⟨s, (farReturn_real hh h0 hn hpe).trans (bind_then (needTarget_run h) (bind_then (upd_run _ _) ?_))⟩
    rw [retfDone_eq, returnTo_real ((releaseStack_table s _ 0).1.trans hpe)]
    rfl
  | true =>
    obtain ⟨d, hd, hf, hlvl, hoff⟩ := canReturnTo_prot hpe h
    obtain ⟨hpe', hd', hpg'⟩ := releaseStack_table s (2 * s.oszBytes + extra) s.retSel
    rw [farReturn_prot hh h0 hn hpe, retfDone_eq, returnTo_prot (hpe'.trans hpe) (hd'.trans hd)]
    obtain ⟨hp, hk⟩ := descFor_ram (hd'.trans hd)
    exact ⟨_, bind_then (returnCS_run hd hf) <| if_then (by rw [hlvl]) <|
      bind_then (need_run (decide_eq_true hoff)) <| bind_then (upd_run _ _) (loadCS_run _ d _ _ hp hk)⟩

end

end

/-- Settles O38: the pointer is read, the mode and what the selector names decide. -/
theorem farTransfersAndReturns : Obligations.FarTransfersAndReturns := by
  refine ⟨fun i call src s hi hl hok h => ?_, fun i call src s d hi hl hok hpe hn hd hs ht => ?_,
    fun i call src s hi hl hok => ⟨fun hpe h => ?_, fun hc h hp hv ha hroom => ?_, fun hpe hr vec code hf => ?_,
      fun d hpe hn hti hd hfree hu => ?_⟩, fun s hl => ⟨fun h => ?_, fun h => ?_, fun hh h0 hn => ⟨fun hpe h => ?_,
      fun hpe hr vec code hf => ?_⟩⟩⟩
  · rw [exec_farForm hi]
    obtain ⟨b, hb⟩ := farTransfer_run (t := Tx.start s) h
    exact instr_completes hl ((farBody_run hok).trans hb)
  · rw [exec_farForm hi]
    refine instr_refused (t := Tx.start s) hl ((farBody_run hok).trans ?_)
    rw [farTransfer_system hpe hn hd hs, farSystem_286 ht]
    rfl
  · rw [exec_farForm hi]
    exact instr_trapped hl ((farBody_run hok).trans (farTransfer_past (t := Tx.start s) rfl hpe h))
  · subst hc
    rw [exec_farForm hi]
    exact instr_trapped hl ((farBody_run hok).trans (farCall_noRoom (t := Tx.start s) rfl h hp hv ha hroom))
  · rw [exec_farForm hi]
    exact instr_trapped hl ((farBody_run hok).trans
      ((farTransfer_prot hpe).trans (farProt_fault (t := Tx.start s) rfl hr hf)))
  · intro k hc
    rw [exec_farForm hi]
    refine instr_switches (t := Tx.start s) hl ((farBody_run hok).trans ?_) rfl hc
    obtain ⟨hs, htyp, -⟩ := isFreeTss_iff.mp hfree
    rw [farTransfer_system hpe hn hd hs, farSystem_tss (.inl htyp)]
    exact toTss_run hti hu hfree
  · simp only [State.canRetf, Bool.and_eq_true] at h
    obtain ⟨⟨⟨hh, h0⟩, hn⟩, h⟩ := h
    have hret (extra : Nat) : instr false (farReturn extra) s = .next (complete s (s.retfDone extra)) := by
      obtain ⟨b, hb⟩ := farReturn_run (extra := extra) hh h0 hn h
      exact instr_completes hl hb
    exact ⟨hret 0, fun iw => hret iw.toNat⟩
  · exact ⟨instr_trapped hl (farReturn_noFrame h), fun iw => instr_trapped hl (farReturn_noFrame h)⟩
  · exact ⟨instr_trapped hl (farReturn_past hh h0 hn hpe h), fun iw => instr_trapped hl (farReturn_past hh h0 hn hpe h)⟩
  · exact ⟨instr_trapped hl (farReturn_fault hh h0 hn hpe hr hf),
      fun iw => instr_trapped hl (farReturn_fault hh h0 hn hpe hr hf)⟩

end Sys2Proof.Machine
end

section
/-! PROOFS. Far JMP and CALL through call gates and task gates: the checks on the gate and its target, the inner stack,
and the parameters (O39). -/

namespace Sys2Proof.Machine

variable {s : State}

/-! ## The checks of a call gate -/

section

variable {call : Bool} {gsel : Word} {g d : Desc} {t : Tx} {x : Byte × Word}

/-- The exceptions of `gateChecks` (43_control_transfer.md R587). -/
def State.gateCheckFault (s : State) (call : Bool) (gsel : Word) (g : Desc) : Option (Byte × Word) :=
  if s.useDenied gsel g then some (13, selCode gsel)
  else if !g.p then some (11, selCode gsel)
  else if isNull g.gateSel then some (13, 0)
  else
    match s.descFor g.gateSel with
    | none => some (13, selCode g.gateSel)
    | some d =>
      if !d.isCode || s.targetDenied call d then some (13, selCode g.gateSel)
      else if !d.p then some (11, selCode g.gateSel)
      else none

/-- The transfer goes on on an inner stack (43_control_transfer.md R588 to R590). -/
def State.toInner (s : State) (call : Bool) (d : Desc) : Bool := call && !d.conforming && d.dpl != s.cpl

/-- The exceptions that follow the checks of a gate: those of the inner stack, then that of the offset
(43_control_transfer.md R588, R590). -/
def State.gateEntryFault (s : State) (call : Bool) (g d : Desc) : Option (Byte × Word) :=
  let past : Option (Byte × Word) := if d.limit32.toNat < g.gateOff.toNat then some (13, 0) else none
  if s.toInner call d then (s.innerFault d.dpl (4 + g.gateCount.toNat)).or past else past

/-- The exceptions of a transfer through a call gate, in order. -/
theorem gateFault_eq (s : State) (call : Bool) (gsel : Word) (g : Desc) :
    s.gateFault call gsel g =
      (s.gateCheckFault call gsel g).or ((s.descFor g.gateSel).bind fun d => s.gateEntryFault call g d) := by
  unfold State.gateFault State.gateCheckFault
  split
  · rfl
  split
  · rfl
  split
  · rfl
  cases s.descFor g.gateSel with
  | none => rfl
  | some d =>
    simp only [Option.bind_some]
    split
    · rfl
    split
    · rfl
    · rfl

/-- The exceptions of the checks, where the gate names a descriptor. -/
theorem gateCheckFault_some (hd : s.descFor g.gateSel = some d) :
    s.gateCheckFault call gsel g =
      if s.useDenied gsel g then some (13, selCode gsel)
      else if !g.p then some (11, selCode gsel)
      else if isNull g.gateSel then some (13, 0)
      else if !d.isCode || s.targetDenied call d then some (13, selCode g.gateSel)
      else if !d.p then some (11, selCode g.gateSel)
      else none := by
  simp [State.gateCheckFault, hd]

theorem gateCheckFault_none (hd : s.descFor g.gateSel = some d) : s.gateCheckFault call gsel g = none ↔
    s.useDenied gsel g = false ∧ g.p = true ∧ isNull g.gateSel = false ∧ d.isCode = true ∧
      s.targetDenied call d = false ∧ d.p = true := by
  rw [gateCheckFault_some hd]
  simp [ite_some_eq_none, and_assoc]

/-- The check of the target's level that `gateChecks` makes, as one. -/
theorem targetLevel_eq {α : Type} {f : Unit → M α} {tsel : Word} :
    (if farKind call = .jmp && !d.conforming then need (d.dpl == s.cpl) (raiseGP tsel) >>= f
      else need (decide (d.dpl.toNat ≤ s.cpl.toNat)) (raiseGP tsel) >>= f : M α) =
      need (!s.targetDenied call d) (raiseGP tsel) >>= f := by
  unfold State.targetDenied
  rw [le_as_not_lt]
  cases call <;> cases d.conforming <;> simp [bne]

/-- A gate that passes its checks gives its target. -/
theorem gateChecks_run (hd : t.cur.descFor g.gateSel = some d) (hf : t.cur.gateCheckFault call gsel g = none) :
    gateChecks (farKind call) gsel g t = .ok d t := by
  obtain ⟨huse, hp, hn, hcode, hden, hdp⟩ := (gateCheckFault_none hd).mp hf
  refine bind_then (look_run _ t) (bind_then (need_run (by rw [mayUse_eq, huse]; rfl)) (bind_then (need_run hp) ?_))
  refine bind_then (need_run (by rw [hn]; rfl)) (bind_then (fetchDescOr_run hd) (bind_then (look_run _ t) ?_))
  refine bind_then (need_run hcode) ((congrFun targetLevel_eq t).trans ?_)
  exact bind_then (need_run (by rw [hden]; rfl)) (bind_then (need_run hdp) rfl)

/-- A gate, or its target, that a check refuses. -/
theorem gateChecks_fault (hx : t.ext = false) (hr : t.cur.tableRam g.gateSel = true)
    (hf : t.cur.gateCheckFault call gsel g = some x) :
    gateChecks (farKind call) gsel g t = .error (.raise { vec := x.1, err := some x.2 }) t := by
  refine bind_then (look_run _ t) <|
    need_or_later (fun h => raiseSel_fault hx hf ?_) fun huse =>
    need_or_later (fun h => raiseSel_fault hx hf ?_) fun hp =>
    need_or_later (fun h => raised_fault (raiseGP0_run hx) hf ?_) fun hn => ?_
  case refine_4 =>
    cases hd : t.cur.descFor g.gateSel with
    | none =>
      refine bind_run_error ((fetchDescOr_none hr hd).trans (raiseSel_fault hx hf ?_))
      simp_all [State.gateCheckFault, mayUse_eq]
    | some d =>
      rw [gateCheckFault_some hd] at hf
      refine bind_then (fetchDescOr_run hd) <| bind_then (look_run _ t) <|
        need_or_later (fun h => raiseSel_fault hx hf ?_) fun hcode => (congrFun targetLevel_eq t).trans <|
        need_or_later (fun h => raiseSel_fault hx hf ?_) fun hden =>
        need_or_later (fun h => raiseSel_fault hx hf ?_) fun hp => absurd hf ?_
      all_goals simp_all [mayUse_eq]
  all_goals simp_all [State.gateCheckFault, mayUse_eq]

/-- `callGateFits` says what the checks ask, but for the level of the target. -/
theorem gateCheckFault_of_fits (h : s.callGateFits gsel g d = true) (hd : s.descFor g.gateSel = some d)
    (hden : s.targetDenied call d = false) :
    s.gateCheckFault call gsel g = none ∧ g.s = false ∧ g.typ = 12 ∧ g.gateOff.toNat ≤ d.limit32.toNat := by
  simp only [State.callGateFits, mayUse_eq, Bool.and_eq_true, Bool.not_eq_true', beq_iff_eq, decide_eq_true_eq] at h
  obtain ⟨⟨⟨⟨⟨⟨⟨hs, ht⟩, huse⟩, hp⟩, hn⟩, hcode⟩, hdp⟩, hoff⟩ := h
  exact ⟨(gateCheckFault_none hd).mpr ⟨huse, hp, hn, hcode, hden, hdp⟩, hs, ht, hoff⟩

end

/-! ## The inner stack -/

section

variable {lvl : BitVec 2} {count : Nat} {sd : Desc} {t : Tx} {x : Byte × Word}

/-- The stack of an inner level is read from a TSS that is long enough (43_control_transfer.md R591). -/
theorem tssStack_run (hr : t.cur.tssRam = true) (hl : 8 * lvl.toNat + 11 ≤ t.cur.tr.limit.toNat) :
    tssStack lvl t = .ok (t.cur.tssStackAt lvl) t := by
  simp only [State.tssRam, Bool.and_eq_true, Bool.not_eq_true'] at hr
  have hk {off n : Nat} (ho : off + n ≤ t.cur.tr.limit.toNat + 1) :
      ∀ pa ∈ addrsFrom (t.cur.tr.base + BitVec.ofNat 32 off) n, t.cur.kindAt pa.toNat = .ram := ramAt_slice hr.2 ho
  refine bind_then (look_run _ t) (bind_then (need_run (decide_eq_true hl)) ?_)
  exact bind_then (linRead_run _ _ _ t hr.1 (hk (by omega))) <|
    bind_then (linRead_run _ _ _ t hr.1 (hk (by omega))) rfl

/-- The exceptions of an inner stack whose selector names a descriptor. -/
theorem innerFault_some (hd : s.descFor (s.tssStackAt lvl).1 = some sd) :
    s.innerFault lvl count =
      if s.tr.limit.toNat < 8 * lvl.toNat + 11 then some (10, selCode s.tr.sel)
      else if isNull (s.tssStackAt lvl).1 then some (10, selCode (s.tssStackAt lvl).1)
      else if rpl (s.tssStackAt lvl).1 != lvl || sd.dpl != lvl || !sd.writableData then
        some (10, selCode (s.tssStackAt lvl).1)
      else if !sd.p || !(sd.toSeg (s.tssStackAt lvl).1).room (s.tssStackAt lvl).2 4 count then
        some (12, selCode (s.tssStackAt lvl).1)
      else none := by
  simp [State.innerFault, hd]

/-- An inner stack without a fault passes its checks. -/
theorem innerFits_of_noFault (hr : s.tssRam = true) (hf : s.innerFault lvl count = none) :
    ∃ sd, s.descFor (s.tssStackAt lvl).1 = some sd ∧ s.innerFits lvl sd count = true := by
  cases hd : s.descFor (s.tssStackAt lvl).1 with
  | none => simp [State.innerFault, hd, ite_some_eq_none] at hf
  | some sd =>
    rw [innerFault_some hd] at hf
    simp only [ite_some_eq_none, Bool.or_eq_true, not_or, Bool.not_eq_true, bne_eq_false_iff_eq, Bool.not_eq_false',
      not_lt] at hf
    obtain ⟨hl, hn, ⟨⟨hrpl, hdpl⟩, hw⟩, ⟨hp, hroom⟩, -⟩ := hf
    refine ⟨sd, rfl, ?_⟩
    simp [State.innerFits, hr, hl, hn, hrpl, hdpl, hw, hp, hroom]

/-- An inner stack that a check refuses. -/
theorem innerStack_fault (hx : t.ext = false) (hr : t.cur.tssRam = true) (hq : ∀ q, t.cur.tableRam q = true)
    (hf : t.cur.innerFault lvl count = some x) :
    innerStack lvl count t = .error (.raise { vec := x.1, err := some x.2 }) t := by
  by_cases hl : t.cur.tr.limit.toNat < 8 * lvl.toNat + 11
  · have hstop : tssStack lvl t = .error (.raise { vec := 10, err := some (selCode t.cur.tr.sel) }) t :=
      bind_then (look_run _ t) (need_stop (by simpa using hl) (raiseSel_run 10 _ hx))
    exact bind_run_error (raised_fault hstop hf (by simp [State.innerFault, hl]))
  · obtain ⟨nss, nesp, hat⟩ : ∃ nss nesp, t.cur.tssStackAt lvl = (nss, nesp) := ⟨_, _, rfl⟩
    refine bind_then (a := (nss, nesp)) (hat ▸ tssStack_run hr (not_lt.mp hl)) <|
      need_or_later (fun h => raiseSel_fault hx hf ?_) fun hn => ?_
    case refine_1 => simp_all [State.innerFault]
    cases hd : t.cur.descFor nss with
    | none =>
      refine bind_run_error ((fetchDescOr_none (hq _) hd).trans (raiseSel_fault hx hf ?_))
      simp_all [State.innerFault]
    | some sd =>
      rw [innerFault_some (by rw [hat]; exact hd), if_neg hl, hat] at hf
      refine bind_then (fetchDescOr_run hd) <|
        need_or_later (fun h => raiseSel_fault hx hf ?_) fun hrpl =>
        need_or_later (fun h => raiseSel_fault hx hf ?_) fun hdpl =>
        need_or_later (fun h => raiseSel_fault hx hf ?_) fun hw =>
        need_or_later (fun h => raiseSel_fault hx hf ?_) fun hp =>
        need_or_later (fun h => raiseSel_fault hx hf ?_) fun hroom => absurd hf ?_
      all_goals simp_all

end

/-! ## Through a call gate -/

section

variable {call : Bool} {gsel : Word} {g d sd : Desc} {t : Tx} {x : Byte × Word}

/-- A computation that only reads, for each element of a list. -/
theorem mapM_reads {α β : Type} {f : α → M β} {v : α → β} {l : List α} (h : ∀ a ∈ l, f a t = .ok (v a) t) :
    l.mapM f t = .ok (l.map v) t := by
  induction l with
  | nil => rfl
  | cons a l ih =>
    rw [List.mapM_cons]
    exact bind_then (h a (by simp)) (bind_then (ih fun b hb => h b (by simp [hb])) rfl)

/-- The parameters of a call gate are read (43_control_transfer.md R592). -/
theorem gateParams_run {c : Nat} (h : t.cur.canParams c = true) : gateParams c t = .ok (t.cur.params c) t := by
  simp only [State.canParams, List.all_eq_true] at h
  exact bind_then (mapM_reads (v := fun i => t.cur.slot (4 * i) 4 32) fun i hi => stackSlot_run (h i hi)) rfl

/-- CALL through a gate to an inner level (43_control_transfer.md R590). -/
theorem callInner_run {dsel : Word} (hd : t.cur.descFor dsel = some d)
    (hsd : t.cur.descFor (t.cur.tssStackAt d.dpl).1 = some sd)
    (hin : t.cur.innerFits d.dpl sd (4 + g.gateCount.toNat) = true) (hoff : g.gateOff.toNat ≤ d.limit32.toNat)
    (hpar : t.cur.canParams g.gateCount.toNat = true)
    (hpush : ((t.cur.drawn 2).onInner d.dpl (t.cur.tssStackAt d.dpl).1 sd (t.cur.tssStackAt d.dpl).2).canPushAll 4
      (4 + g.gateCount.toNat) = true) :
    ∃ b, callInner g d t = .ok () ⟨t.cur.calledInner g d sd, b, t.ext⟩ := by
  obtain ⟨hp, hk⟩ := descFor_ram hd
  obtain ⟨-, hks⟩ := descFor_ram hsd
  let vs := ((t.cur.any 0).setWidth 16 ++ t.cur.segs.ss.sel) :: t.cur.gpr .esp :: t.cur.params g.gateCount.toNat ++
    [(t.cur.any 1).setWidth 16 ++ t.cur.segs.cs.sel, t.cur.nextEip]
  have hlen : vs.length = 4 + g.gateCount.toNat := by simp [vs, State.params]; omega
  obtain ⟨m, r, ss, he⟩ :=
    onInner_eq (t.cur.drawn 2) d.dpl (t.cur.tssStackAt d.dpl).1 sd (t.cur.tssStackAt d.dpl).2 4 vs
  refine ⟨((t.base.drawn 2).accessed sd).accessed d, ?_⟩
  refine bind_then (innerStack_run hsd hin) <| bind_then (need_run (decide_eq_true hoff)) <|
    bind_then (gateParams_run hpar) <| bind_then (look_run _ t) <| bind_then (look_run _ t) <|
    bind_then (anySel_run _ t) <| bind_then (returnAddress_run _) <| bind_then (enterStack_run hp hks) ?_
  refine bind_then (pushAll_run 4 vs _ (by rw [hlen]; exact hpush)) ?_
  exact loadCS_run _ d _ _ ((congrArg State.pg he).trans hp) ((congrArg (State.kindAt · _) he).trans hk)

/-- The choice that `throughGate` makes. -/
theorem toInner_eq (s : State) (call : Bool) (d : Desc) :
    (decide (farKind call = .jmp) || d.conforming || d.dpl == s.cpl) = !s.toInner call d := by
  unfold State.toInner
  cases call <;> cases d.conforming <;> simp [bne]

section

variable (hd : t.cur.descFor g.gateSel = some d) (hf : t.cur.gateCheckFault call gsel g = none)

include hd hf

theorem throughGate_inner (h : t.cur.toInner call d = true) :
    throughGate (farKind call) gsel g t = callInner g d t :=
  bind_then (gateChecks_run hd hf) (bind_then (look_run _ t) (if_else (by rw [toInner_eq, h]; decide) rfl))

theorem throughGate_same (h : t.cur.toInner call d = false) :
    throughGate (farKind call) gsel g t =
      (do need (decide (g.gateOff.toNat ≤ d.limit32.toNat)) raiseGP0
          pushReturn (farKind call) 4
          loadCS (withRpl g.gateSel t.cur.cpl) d g.gateOff : M Unit) t :=
  bind_then (gateChecks_run hd hf) (bind_then (look_run _ t) (if_then (by rw [toInner_eq, h]; rfl) rfl))

/-- What follows the checks of the gate raises an exception. -/
theorem gateEntry_fault (hx : t.ext = false) (hr : t.cur.tssRam = true) (hq : ∀ q, t.cur.tableRam q = true)
    (h : t.cur.gateEntryFault call g d = some x) :
    throughGate (farKind call) gsel g t = .error (.raise { vec := x.1, err := some x.2 }) t := by
  have hpast (h : (if d.limit32.toNat < g.gateOff.toNat then some (13, 0) else none) = some x) :
      (need (decide (g.gateOff.toNat ≤ d.limit32.toNat)) raiseGP0 : M Unit) t =
        .error (.raise { vec := x.1, err := some x.2 }) t := by
    obtain ⟨hlim, hv⟩ := Option.ite_none_right_eq_some.mp h
    exact raised_fault ((need_fail (by simpa using hlim)).trans (raiseGP0_run hx)) h (if_pos hlim)
  unfold State.gateEntryFault at h
  cases hin : t.cur.toInner call d with
  | false =>
    rw [hin] at h
    rw [throughGate_same hd hf hin]
    exact bind_run_error (hpast h)
  | true =>
    rw [hin, if_pos rfl] at h
    rw [throughGate_inner hd hf hin]
    obtain h | ⟨hnone, h⟩ := Option.or_eq_some_iff.mp h
    · exact bind_run_error (innerStack_fault hx hr hq h)
    · obtain ⟨sd, hsd, hfits⟩ := innerFits_of_noFault hr hnone
      exact bind_then (innerStack_run hsd hfits) (bind_run_error (hpast h))

end

/-- A transfer through a call gate that stays at CPL. -/
theorem throughGate_run (hd : t.cur.descFor g.gateSel = some d) (hf : t.cur.gateCheckFault call gsel g = none)
    (h : t.cur.toInner call d = false) (hoff : g.gateOff.toNat ≤ d.limit32.toNat)
    (hpush : call = true → t.cur.canPushAll 4 2 = true) :
    ∃ b, throughGate (farKind call) gsel g t =
      .ok () ⟨(t.cur.withReturn call 4).enterCode g.gateSel t.cur.cpl d g.gateOff, b, t.ext⟩ := by
  obtain ⟨b, hb⟩ := pushReturn_run hpush
  obtain ⟨b', hb'⟩ :=
    enterDirect_run (call := call) (n := 4) (sel := g.gateSel) (lvl := t.cur.cpl) (off := g.gateOff) hd b
  exact ⟨b', (throughGate_same hd hf h).trans (bind_then (need_run (decide_eq_true hoff)) (bind_then hb hb'))⟩

/-- A transfer through a call gate that a check refuses. -/
theorem throughGate_fault (hx : t.ext = false) (hr : t.cur.tssRam = true) (hq : ∀ q, t.cur.tableRam q = true)
    (hf : t.cur.gateFault call gsel g = some x) :
    throughGate (farKind call) gsel g t = .error (.raise { vec := x.1, err := some x.2 }) t := by
  rw [gateFault_eq] at hf
  obtain h | ⟨hnone, h⟩ := Option.or_eq_some_iff.mp hf
  · exact bind_run_error (gateChecks_fault hx (hq _) h)
  · obtain ⟨d, hd, h⟩ := Option.bind_eq_some_iff.mp h
    exact gateEntry_fault hd hnone hx hr hq h

end

/-! ## Through a task gate -/

section

variable {gsel : Word} {g d : Desc} {k : SwitchKind} {t : Tx} {x : Byte × Word} {eip flags : Dword} {err : Option Word}

/-- The TSS that a task gate names, found (47_multitasking.md R866). -/
theorem gateTarget_found {tsel : Word} (hn : isNull tsel = false) (hti : ti tsel = false)
    (hd : t.cur.descFor tsel = some d) :
    gateTarget tsel k eip flags err t =
      (do need (!(!d.s && (d.typ == 1 || d.typ == 3))) (refuse .descriptor286)
          need (!d.s && (d.typ == 9 || d.typ == 11)) (raiseGP tsel)
          need (d.typ == 9) (raiseGP tsel)
          need d.p (raiseNP tsel)
          taskSwitch tsel d k eip flags err : M Unit) t :=
  bind_then (need_run (by rw [hn]; rfl)) (bind_then (need_run (by rw [hti]; rfl)) (bind_then (fetchDescOr_run hd) rfl))

theorem gateTarget_run {tsel : Word} (hn : isNull tsel = false) (hti : ti tsel = false)
    (hd : t.cur.descFor tsel = some d) (hf : d.isFreeTss = true) :
    gateTarget tsel k eip flags err t = taskSwitch tsel d k eip flags err t := by
  obtain ⟨hs, htyp, hp⟩ := isFreeTss_iff.mp hf
  rw [gateTarget_found hn hti hd]
  refine bind_then (need_run (by rw [htyp, hs]; rfl)) (bind_then (need_run (by rw [htyp, hs]; rfl)) ?_)
  exact bind_then (need_run (by rw [htyp]; rfl)) (bind_then (need_run hp) rfl)

theorem gateTarget_286 {tsel : Word} (hn : isNull tsel = false) (hti : ti tsel = false)
    (hd : t.cur.descFor tsel = some d) (hs : d.s = false) (ht : d.typ = 1 ∨ d.typ = 3) :
    gateTarget tsel k eip flags err t = .error (.refuse .descriptor286) t := by
  rw [gateTarget_found hn hti hd]
  exact need_stop (by rcases ht with h | h <;> simp [hs, h]) rfl

/-- A task gate that may be used: on to the TSS it names. -/
theorem toTaskGate_run (hu : t.cur.useDenied gsel g = false) (hp : g.p = true) :
    toTaskGate k gsel g t = gateTarget g.gateSel k t.cur.nextEip t.cur.eflags none t :=
  bind_then (look_run _ t) <| bind_then (need_run (by rw [mayUse_eq, hu]; rfl)) <| bind_then (need_run hp) <|
    bind_then (look_run _ t) (bind_then (look_run _ t) rfl)

/-- The exceptions of a task gate whose selector names a descriptor of the GDT. -/
theorem taskGateFault_some (hd : s.descFor g.gateSel = some d) :
    s.taskGateFault gsel g =
      if s.useDenied gsel g then some (13, selCode gsel)
      else if !g.p then some (11, selCode gsel)
      else if isNull g.gateSel then some (13, 0)
      else if ti g.gateSel then some (13, selCode g.gateSel)
      else if !d.s && (d.typ == 1 || d.typ == 3) then none
      else if d.s || d.typ != 9 then some (13, selCode g.gateSel)
      else if !d.p then some (11, selCode g.gateSel)
      else if d.limit32.toNat < 103 then some (10, selCode g.gateSel)
      else none := by
  simp [State.taskGateFault, hd]

/-- A task gate, or its TSS, that a check refuses. -/
theorem toTaskGate_fault (hx : t.ext = false) (hr : t.cur.tableRam g.gateSel = true)
    (hf : t.cur.taskGateFault gsel g = some x) :
    toTaskGate k gsel g t = .error (.raise { vec := x.1, err := some x.2 }) t := by
  refine bind_then (look_run _ t) <|
    need_or_later (fun h => raiseSel_fault hx hf ?_) fun huse =>
    need_or_later (fun h => raiseSel_fault hx hf ?_) fun hp =>
    bind_then (look_run _ t) <| bind_then (look_run _ t) <|
    need_or_later (fun h => raised_fault (raiseGP0_run hx) hf ?_) fun hn =>
    need_or_later (fun h => raiseSel_fault hx hf ?_) fun hti => ?_
  case refine_5 =>
    cases hd : t.cur.descFor g.gateSel with
    | none =>
      refine bind_run_error ((fetchDescOr_none hr hd).trans (raiseSel_fault hx hf ?_))
      simp_all [State.taskGateFault, mayUse_eq]
    | some d =>
      simp only [mayUse_eq, Bool.not_eq_true'] at huse hn hti
      rw [taskGateFault_some hd] at hf
      simp only [huse, hp, hn, hti, Bool.not_true, Bool.false_eq_true, if_false] at hf
      refine bind_then (fetchDescOr_run hd) ?_
      cases h286 : !d.s && (d.typ == 1 || d.typ == 3) with
      | true =>
        rw [if_pos h286] at hf
        cases hf
      | false =>
        rw [if_neg (ne_true_of_eq_false h286)] at hf
        refine bind_then (need_run rfl) <|
          need_or_later (fun h => raiseSel_fault hx hf ?_) fun h386 =>
          need_or_later (fun h => raiseSel_fault hx hf ?_) fun hfree =>
          need_or_later (fun h => raiseSel_fault hx hf ?_) fun hdp => ?_
        case refine_4 =>
          by_cases hlim : d.limit32.toNat < 103
          · refine raised_fault (taskSwitch_short hx hlim) hf ?_
            simp_all
          · simp_all
        case refine_1 | refine_2 =>
          have hbad : (d.s || d.typ != 9) = true := by
            cases hs : d.s with
            | true => rfl
            | false => simp_all [bne]
          rw [if_pos hbad]
        case refine_3 =>
          simp_all
  all_goals simp_all [State.taskGateFault, mayUse_eq]

end

/-- A target of the current level, or a conforming one, is reached at CPL. -/
theorem gate_at_cpl {call : Bool} {d : Desc}
    (h : d.dpl = s.cpl ∨ (d.conforming = true ∧ d.dpl.toNat ≤ s.cpl.toNat)) :
    s.targetDenied call d = false ∧ s.toInner call d = false := by
  unfold State.targetDenied State.toInner
  rcases h with h | ⟨hc, hlvl⟩
  · simp [h]
  · simp [hc, hlvl]

/-- A CALL reaches a nonconforming target of an inner level on its stack. -/
theorem gate_to_inner {d : Desc} (hc : d.conforming = false) (h : d.dpl.toNat < s.cpl.toNat) :
    s.targetDenied true d = false ∧ s.toInner true d = true := by
  have hne : d.dpl ≠ s.cpl := ne_of_apply_ne BitVec.toNat h.ne
  unfold State.targetDenied State.toInner
  simp [hc, h.le, hne]

/-- Settles O39: the gate and its target pass their checks, or one of them gives the exception. -/
theorem callGates : Obligations.CallGates := by
  refine ⟨fun i call src s g d hi hl hok hpe hn hg hfits hd => ⟨fun hlvl hpush => ?_,
    fun sd hc hconf hlvl hsd hin hpar hpush => ?_⟩, ?_⟩
  · obtain ⟨hden, hsame⟩ := gate_at_cpl (call := call) hlvl
    obtain ⟨hcheck, hs, ht, hoff⟩ := gateCheckFault_of_fits hfits hd hden
    obtain ⟨b, hb⟩ := throughGate_run (t := Tx.start s) hd hcheck hsame hoff hpush
    rw [← farSystem_gate ht] at hb
    rw [exec_farForm hi]
    exact instr_completes hl ((farBody_run hok).trans ((farTransfer_system (t := Tx.start s) hpe hn hg hs).trans hb))
  · subst hc
    obtain ⟨hden, hinner⟩ := gate_to_inner hconf hlvl
    obtain ⟨hcheck, hs, ht, hoff⟩ := gateCheckFault_of_fits hfits hd hden
    obtain ⟨b, hb⟩ := callInner_run (t := Tx.start s) hd hsd hin hoff hpar hpush
    rw [← throughGate_inner (t := Tx.start s) hd hcheck hinner, ← farSystem_gate ht] at hb
    rw [exec_farForm hi]
    exact instr_completes hl ((farBody_run hok).trans ((farTransfer_system (t := Tx.start s) hpe hn hg hs).trans hb))
  · intro i call src s g hi hl hok hpe sel k hn hg hs
    have hbody : src.body (farKind call) (Tx.start s) = farSystem (farKind call) sel g (Tx.start s) :=
      (farBody_run hok).trans (farTransfer_system hpe hn hg hs)
    rw [exec_farForm hi]
    refine ⟨fun ht hr hq vec code hf => ?_, fun ht hr vec code hf => ?_, fun ht hu hp hgn hgti d hd => ?_⟩
    · rw [farSystem_gate ht] at hbody
      exact instr_trapped hl (hbody.trans (throughGate_fault (t := Tx.start s) rfl hr hq hf))
    · rw [farSystem_taskGate ht] at hbody
      exact instr_trapped hl (hbody.trans (toTaskGate_fault (t := Tx.start s) rfl hr hf))
    · rw [farSystem_taskGate ht, toTaskGate_run (t := Tx.start s) hu hp] at hbody
      refine ⟨fun hds htyp => ?_, fun hfree hc => ?_⟩
      · exact instr_refused hl (hbody.trans (gateTarget_286 hgn hgti hd hds htyp))
      · exact instr_switches (t := Tx.start s) hl (hbody.trans (gateTarget_run hgn hgti hd hfree)) rfl hc

end Sys2Proof.Machine
end

section
/-! PROOFS. RETF and IRET: the return to an outer level with its stack, IRET in each mode, to the same level and to
another task, and what a popped image changes in EFLAGS (O40, O46). -/

namespace Sys2Proof.Machine

variable {s : State}

/-! ## The stack of an outer level -/

section

variable {up n extra : Nat} {rsel nss : Word} {d sd : Desc} {f : M Unit} {t : Tx} {x : Byte × Word} {lvl : BitVec 2}

/-- The exceptions of the stack of an outer level, where its selector names a descriptor. -/
theorem outerFault_some (hd : s.descFor nss = some sd) :
    s.outerFault lvl nss =
      if isNull nss then some (13, 0)
      else if rpl nss != lvl || !sd.writableData || sd.dpl != lvl then some (13, selCode nss)
      else if !sd.p then some (12, selCode nss)
      else none := by
  simp [State.outerFault, hd]

theorem outerFault_none (hd : s.descFor nss = some sd) : s.outerFault lvl nss = none ↔
    isNull nss = false ∧ rpl nss = lvl ∧ sd.writableData = true ∧ sd.dpl = lvl ∧ sd.p = true := by
  rw [outerFault_some hd]
  simp [ite_some_eq_none, and_assoc]

/-- The stack of the outer level does not lie in the stack segment. -/
theorem returnSS_noStack (hx : t.ext = false) (hh : t.cur.holdsSlots up n 2 = false) :
    returnSS up n rsel t = .error (.raise { vec := 12, err := some 0 }) t :=
  bind_run_error ((needStack_fail hh).trans (raiseSS0_run hx))

section

variable (hh : t.cur.holdsSlots up n 2 = true) (hoff : t.cur.canSlot up n = true)
  (hsel : t.cur.canSlot (up + n) 2 = true)

include hh hoff hsel

/-- The stack of the outer level passes its checks (43_control_transfer.md R596). -/
theorem returnSS_run (hd : t.cur.descFor (t.cur.slot (up + n) 2 16) = some sd)
    (hf : t.cur.outerFault (rpl rsel) (t.cur.slot (up + n) 2 16) = none) :
    returnSS up n rsel t = .ok { sel := t.cur.slot (up + n) 2 16, esp := t.cur.slot up n 32, desc := sd } t := by
  obtain ⟨hn, hrpl, hw, hdpl, hp⟩ := (outerFault_none hd).mp hf
  refine bind_then (needStack_run hh) (bind_then (readStack_run hoff) (bind_then (readStack_run hsel) ?_))
  refine bind_then (need_run (by rw [hn]; rfl)) (bind_then (fetchDescOr_run hd) ?_)
  refine bind_then (need_run (beq_iff_eq.mpr hrpl)) (bind_then (need_run hw) ?_)
  exact bind_then (need_run (beq_iff_eq.mpr hdpl)) (bind_then (need_run hp) rfl)

/-- The saved SS fails a check. -/
theorem returnSS_fault (hx : t.ext = false) (hr : t.cur.tableRam (t.cur.slot (up + n) 2 16) = true)
    (hf : t.cur.outerFault (rpl rsel) (t.cur.slot (up + n) 2 16) = some x) :
    returnSS up n rsel t = .error (.raise { vec := x.1, err := some x.2 }) t := by
  refine bind_then (needStack_run hh) <| bind_then (readStack_run hoff) <| bind_then (readStack_run hsel) <|
    need_or_later (fun h => raised_fault (raiseGP0_run hx) hf ?_) fun hn => ?_
  case refine_1 => simp_all [State.outerFault]
  generalize (t.cur.slot (up + n) 2 16 : Word) = nss at hr hf hn ⊢
  cases hd : t.cur.descFor nss with
  | none =>
    refine bind_run_error ((fetchDescOr_none hr hd).trans (raiseSel_fault hx hf ?_))
    simp_all [State.outerFault]
  | some sd =>
    rw [outerFault_some hd] at hf
    refine bind_then (fetchDescOr_run hd) <|
      need_or_later (fun h => raiseSel_fault hx hf ?_) fun hrpl =>
      need_or_later (fun h => raiseSel_fault hx hf ?_) fun hw =>
      need_or_later (fun h => raiseSel_fault hx hf ?_) fun hdpl =>
      need_or_later (fun h => raiseSel_fault hx hf ?_) fun hp => absurd hf ?_
    all_goals simp_all

end

/-- The state in the code segment of the outer level, before its stack is loaded. -/
def State.inOuterCode (s : State) (sel : Word) (d : Desc) (off : Dword) : State :=
  ((({ s with cpl := rpl sel } : State).accessed d).setSeg .cs (d.toSeg sel)).goTo off

@[simp] theorem accessed_pg (s : State) (d : Desc) : (s.accessed d).pg = s.pg := by
  rw [accessed_eq]
  rfl

/-- Entering it leaves paging and the address map as they are. -/
theorem inOuterCode_keeps (s : State) (sel : Word) (d : Desc) (off : Dword) :
    (s.inOuterCode sel d off).pg = s.pg ∧ ∀ pa, (s.inOuterCode sel d off).kindAt pa = s.kindAt pa := by
  exact ⟨accessed_pg { s with cpl := rpl sel } d, accessed_kindAt { s with cpl := rpl sel } d⟩

/-- The state with the segment of the outer stack loaded. -/
def State.inOuter (s : State) (n up : Nat) (d sd : Desc) : State :=
  ((s.inOuterCode (s.slot n 2 16) d (s.slot 0 n 32)).accessed sd).setSeg .ss (sd.toSeg (s.slot (up + n) 2 16))

/-- What `toOuter` adds: the stack pointer, and the bytes released. -/
theorem toOuter_eq (s : State) (n up extra : Nat) (d sd : Desc) :
    s.toOuter n up extra d sd =
      (if n = 4 then (s.inOuter n up d sd).setGpr .esp (s.slot up n 32)
        else ((s.inOuter n up d sd).drawn 1).setGpr .esp
          (((s.inOuter n up d sd).any 0).setWidth 16 ++ ((s.slot up n 32 : Dword).setWidth 16 : Word))).releaseStack
        extra := rfl

/-- CS:EIP and SS:ESP of the outer level are loaded (43_control_transfer.md R596). -/
theorem leaveInner_run (hd : t.cur.descFor (t.cur.slot n 2 16) = some d)
    (hsd : t.cur.descFor (t.cur.slot (up + n) 2 16) = some sd) :
    ∃ b, leaveInner (t.cur.slot n 2 16) d (t.cur.slot 0 n 32)
        { sel := t.cur.slot (up + n) 2 16, esp := t.cur.slot up n 32, desc := sd } n extra t =
      .ok () ⟨t.cur.toOuter n up extra d sd, b, t.ext⟩ := by
  obtain ⟨hp, hk⟩ := descFor_ram hd
  obtain ⟨-, hks⟩ := descFor_ram hsd
  obtain ⟨hpg, hkind⟩ := inOuterCode_keeps t.cur (t.cur.slot n 2 16) d (t.cur.slot 0 n 32)
  have hcs := loadCS_run (t.cur.slot n 2 16) d (t.cur.slot 0 n 32)
    ⟨{ t.cur with cpl := rpl (t.cur.slot n 2 16) }, t.base, t.ext⟩ hp hk
  have hss := loadSegFrom_run .ss (t.cur.slot (up + n) 2 16) sd
    ⟨t.cur.inOuterCode (t.cur.slot n 2 16) d (t.cur.slot 0 n 32), t.base.accessed d, t.ext⟩ (hpg.trans hp)
    ((hkind _).trans hks)
  rw [toOuter_eq]
  by_cases h4 : n = 4
  · rw [if_pos h4]
    exact ⟨_, bind_then (upd_run _ t) (bind_then hcs (bind_then hss (if_then h4 rfl)))⟩
  · rw [if_neg h4]
    exact ⟨_, bind_then (upd_run _ t) (bind_then hcs (bind_then hss (if_else h4 (bind_then (anyBits_run 16 _) rfl))))⟩

theorem thenOuter_noStack (hx : t.ext = false) (hh : t.cur.holdsSlots up t.cur.oszBytes 2 = false) :
    thenOuter t.cur up extra d f t = .error (.raise { vec := 12, err := some 0 }) t :=
  bind_run_error (returnSS_noStack hx hh)

section

variable (hh : t.cur.holdsSlots up t.cur.oszBytes 2 = true) (hoff : t.cur.canSlot up t.cur.oszBytes = true)
  (hsel : t.cur.canSlot (up + t.cur.oszBytes) 2 = true)

include hh hoff hsel

theorem thenOuter_fault (hx : t.ext = false) (hr : t.cur.tableRam (t.cur.slot (up + t.cur.oszBytes) 2 16) = true)
    (hf : t.cur.outerFault (rpl t.cur.retSel) (t.cur.slot (up + t.cur.oszBytes) 2 16) = some x) :
    thenOuter t.cur up extra d f t = .error (.raise { vec := x.1, err := some x.2 }) t :=
  bind_run_error (returnSS_fault hh hoff hsel hx hr hf)

variable (hsd : t.cur.descFor (t.cur.slot (up + t.cur.oszBytes) 2 16) = some sd)
  (hf : t.cur.outerFault (rpl t.cur.retSel) (t.cur.slot (up + t.cur.oszBytes) 2 16) = none)

include hsd hf

theorem thenOuter_past (hx : t.ext = false) (hlim : d.limit32.toNat < t.cur.retOff.toNat) :
    thenOuter t.cur up extra d f t = .error (.raise { vec := 13, err := some 0 }) t :=
  bind_then (returnSS_run hh hoff hsel hsd hf) (need_stop (by simpa using hlim) (raiseGP0_run hx))

theorem thenOuter_run (hd : t.cur.descFor t.cur.retSel = some d) (hlim : t.cur.retOff.toNat ≤ d.limit32.toNat) :
    ∃ b, thenOuter t.cur up extra d f t = f ⟨t.cur.toOuter t.cur.oszBytes up extra d sd, b, t.ext⟩ := by
  obtain ⟨b, hb⟩ := leaveInner_run (extra := extra) hd hsd
  exact ⟨b, bind_then (returnSS_run hh hoff hsel hsd hf) <| bind_then (need_run (decide_eq_true hlim)) <|
    bind_then hb rfl⟩

end

end

/-! ## IRET -/

/-- IRET has begun: NMI service is over, and RF will stay as it is loaded (10_state.md R107, R62). -/
def State.iretStarted (s : State) : State := { s with nmiLatch := false, ctx := { s.ctx with keepRF := true } }

/-- The working state of IRET: an exception still goes back to the state before it. -/
def Tx.iret (s : State) : Tx := { cur := s.iretStarted, base := s, ext := false }

/-- The image of the flags that IRET pops. -/
def State.retFlags (s : State) : Dword := s.slot (2 * s.oszBytes) s.oszBytes 32

/-- IRET loads the flags, as the level `lvl` allows (43_control_transfer.md R612). -/
def State.loadFlags (u s : State) (lvl : Option (BitVec 2)) : State :=
  { u with eflags := writeFlags u.eflags s.retFlags (s.oszBytes == 4) lvl }

/-- IRET in protected mode from where the code segment has passed its checks (43_control_transfer.md R610, R611). -/
def iretTail (s : State) (d : Desc) : M Unit :=
  if (rpl s.retSel).toNat ≤ s.cpl.toNat then do
    need (decide (s.retOff.toNat ≤ d.limit32.toNat)) raiseGP0
    upd (·.releaseStack (3 * s.oszBytes))
    loadCS s.retSel d s.retOff
    upd (·.loadFlags s (some s.cpl))
  else
    thenOuter s (3 * s.oszBytes) 0 d do
      upd (·.loadFlags s (some s.cpl))
      upd (·.cleanSegs)

theorem iret_real (hpe : s.pe = false) : returnFromException (Tx.start s) = iretReal (Tx.iret s) :=
  bind_then (upd_run _ _) (bind_then (look_run _ _) (if_else (ne_true_of_eq_false hpe) rfl))

theorem iret_prot (hpe : s.pe = true) (hnt : s.nt = false) : returnFromException (Tx.start s) = iretProt (Tx.iret s) :=
  bind_then (upd_run _ _) <| bind_then (look_run _ _) <| if_then hpe <| bind_then (look_run _ _) <|
    if_else (ne_true_of_eq_false hnt) rfl

theorem iret_task (hpe : s.pe = true) (hnt : s.nt = true) : returnFromException (Tx.start s) = taskReturn (Tx.iret s) :=
  bind_then (upd_run _ _) <| bind_then (look_run _ _) <| if_then hpe <| bind_then (look_run _ _) <| if_then hnt rfl

/-- A stack that does not hold the frame of IRET (43_control_transfer.md R609, R610). -/
theorem iret_noFrame (hmode : s.pe = false ∨ s.nt = false) (h : s.holdsSlots 0 s.oszBytes 3 = false) :
    returnFromException (Tx.start s) = .error (.raise { vec := 12, err := some 0 }) (Tx.iret s) := by
  have hstop : needStack 0 s.oszBytes 3 (Tx.iret s) = .error (.raise { vec := 12, err := some 0 }) (Tx.iret s) :=
    (needStack_fail h).trans (raiseSS0_run rfl)
  cases hpe : s.pe with
  | false => exact (iret_real hpe).trans (bind_then (look_run _ _) (bind_run_error hstop))
  | true =>
    have hnt : s.nt = false := hmode.resolve_left (by simp [hpe])
    exact (iret_prot hpe hnt).trans (bind_then (look_run _ _) (bind_then (look_run _ _) (bind_run_error hstop)))

section

variable (hh : s.holdsSlots 0 s.oszBytes 3 = true) (h0 : s.canSlot 0 s.oszBytes = true)
  (h2 : s.canSlot (2 * s.oszBytes) s.oszBytes = true)

include hh h0 h2

/-- IRET in real-address mode reads the frame, then checks the offset (43_control_transfer.md R609). -/
theorem iretReal_run (h1 : s.canSlot s.oszBytes s.oszBytes = true) :
    iretReal (Tx.iret s) =
      (do need (s.inCode s.retOff) raiseGP0
          upd (·.releaseStack (3 * s.oszBytes))
          upd (·.enterReal ((s.slot s.oszBytes s.oszBytes 32).setWidth 16) s.retOff)
          upd (·.loadFlags s none) : M Unit) (Tx.iret s) :=
  bind_then (look_run _ _) <| bind_then (needStack_run hh) <| bind_then (readStack_run h0) <|
    bind_then (readStack_run h1) <| bind_then (readStack_run h2) <| bind_then (look_run _ _) rfl

variable (hpe : s.pe = true) (hnt : s.nt = false) (h1 : s.canSlot s.oszBytes 2 = true)

include hpe hnt h1

/-- IRET in protected mode reads the frame; an image that would set VM at level 0 is refused (10_state.md R63). -/
theorem iretProt_run :
    returnFromException (Tx.start s) =
      (do need (!(s.oszBytes == 4 && s.retFlags.getLsbD 17 && s.cpl == 0)) (refuse .virtual8086)
          let d ← returnCS s.retSel
          iretTail s d : M Unit) (Tx.iret s) :=
  (iret_prot hpe hnt).trans <| bind_then (look_run _ _) <| bind_then (look_run _ _) <| bind_then (needStack_run hh) <|
    bind_then (readStack_run h0) <| bind_then (readStack_run h1) <| bind_then (readStack_run h2) rfl

end

/-! ## RETF and IRET to an outer level -/

section

variable {up n extra : Nat} {d sd : Desc}

@[simp] theorem releaseStack_eflags (s : State) (n : Nat) : (s.releaseStack n).eflags = s.eflags := by
  obtain ⟨g, hg⟩ := releaseStack_eq s n
  rw [hg]

@[simp] theorem accessed_eflags (s : State) (d : Desc) : (s.accessed d).eflags = s.eflags := by
  rw [accessed_eq]

/-- The return to an outer level leaves the flags to RETF or IRET. -/
theorem toOuter_eflags (s : State) (n up extra : Nat) (d sd : Desc) :
    (s.toOuter n up extra d sd).eflags = s.eflags := by
  have hin : (s.inOuter n up d sd).eflags = s.eflags :=
    (accessed_eflags _ sd).trans (accessed_eflags { s with cpl := rpl (s.slot n 2 16) } d)
  rw [toOuter_eq, releaseStack_eflags]
  split <;> exact hin

variable (hpe : s.pe = true) (h0 : s.canSlot 0 s.oszBytes = true) (h1 : s.canSlot s.oszBytes 2 = true)
  (hd : s.descFor s.retSel = some d) (hf : s.returnFault s.retSel s.retOff = none)
  (hout : s.cpl.toNat < (rpl s.retSel).toNat)

include hpe h0 h1 hd hf hout

/-- RETF to an outer level, from where the code segment has passed its checks. -/
theorem farReturn_outer (hh : s.holdsSlots 0 s.oszBytes 2 = true) :
    farReturn extra (Tx.start s) =
      thenOuter s (2 * s.oszBytes + extra) extra d (upd (·.cleanSegs)) (Tx.start s) :=
  (farReturn_prot ((holdsReturn_prot hpe).trans hh) h0 h1 hpe).trans <|
    bind_then (returnCS_run hd (returnFault_zero hf)) (if_else (by omega) rfl)

/-- IRET to an outer level, likewise. -/
theorem iret_outer (hnt : s.nt = false) (hh : s.holdsSlots 0 s.oszBytes 3 = true)
    (h2 : s.canSlot (2 * s.oszBytes) s.oszBytes = true)
    (hvm : (!(s.oszBytes == 4 && s.retFlags.getLsbD 17 && s.cpl == 0)) = true) :
    returnFromException (Tx.start s) =
      thenOuter s (3 * s.oszBytes) 0 d (do upd (·.loadFlags s (some s.cpl)); upd (·.cleanSegs)) (Tx.iret s) :=
  (iretProt_run hh h0 h2 hpe hnt h1).trans <| bind_then (need_run hvm) <|
    bind_then (returnCS_run (t := Tx.iret s) hd (returnFault_zero hf)) (if_else (by omega) rfl)

end

/-- Settles O40: each return is `thenOuter` with the place of the outer stack and what follows on it. -/
theorem returnsToOuterLevel : Obligations.ReturnsToOuterLevel := by
  intro s d hl hpe n sel off hd h0 h1 hout hf noVm popsFlags
  refine ⟨fun iw => ?_, fun ⟨hnt, hh, h2, hvm⟩ => ?_⟩
  · intro up nss returns hh
    have hreturns {o : Outcome} (h : instr false (farReturn iw.toNat) s = o) : returns o :=
      ⟨fun h0 => by subst h0; exact h, h⟩
    have hrun := farReturn_outer (extra := iw.toNat) hpe h0 h1 hd hf hout hh
    refine ⟨fun h => hreturns (instr_trapped hl (hrun.trans (thenOuter_noStack (t := Tx.start s) rfl h))),
      fun hst hoff hsel => ⟨fun hr vec code hfault => ?_, fun sd hsd hfault => ⟨fun hlim => ?_, fun hlim => ?_⟩⟩⟩
    · exact hreturns (instr_trapped hl (hrun.trans (thenOuter_fault (t := Tx.start s) hst hoff hsel rfl hr hfault)))
    · exact hreturns (instr_trapped hl
        (hrun.trans (thenOuter_past (t := Tx.start s) hst hoff hsel hsd hfault rfl hlim)))
    · obtain ⟨b, hb⟩ := thenOuter_run (t := Tx.start s) hst hoff hsel hsd hfault hd hlim
      exact hreturns (instr_completes hl (hrun.trans (hb.trans (upd_run _ _))))
  · intro up nss
    have hrun := iret_outer hpe h0 h1 hd hf hout hnt hh h2 hvm
    refine ⟨fun h => instr_trapped hl (hrun.trans (thenOuter_noStack (t := Tx.iret s) rfl h)),
      fun hst hoff hsel => ⟨fun hr vec code hfault => ?_, fun sd hsd hfault => ⟨fun hlim => ?_, fun hlim => ?_⟩⟩⟩
    · exact instr_trapped hl (hrun.trans (thenOuter_fault (t := Tx.iret s) hst hoff hsel rfl hr hfault))
    · exact instr_trapped hl (hrun.trans (thenOuter_past (t := Tx.iret s) hst hoff hsel hsd hfault rfl hlim))
    · intro t flags
      have hflags : t.loadFlags s (some s.cpl) = { t with eflags := flags } := by
        rw [State.loadFlags, toOuter_eflags]
        rfl
      obtain ⟨b, hb⟩ := thenOuter_run (t := Tx.iret s) hst hoff hsel hsd hfault hd hlim
      rw [← hflags]
      exact instr_completes hl (hrun.trans (hb.trans (bind_then (upd_run _ _) (upd_run _ _))))

/-! ## What a popped image of the flags changes -/

section

/-- Which bits of EFLAGS are fixed (10_state.md R51, R63). -/
theorem fixFlags_bit (v : Dword) {i : Nat} (hi : i < 32) :
    (fixFlags v).getLsbD i =
      if i = 1 then true else if i = 3 ∨ i = 5 ∨ i = 15 ∨ 17 < i then false else v.getLsbD i := by
  unfold fixFlags
  rw [BitVec.getLsbD_or, BitVec.getLsbD_and]
  interval_cases i <;> simp

variable {i : Nat} (hi : i < 32)

include hi

/-- A field taken over from another word has that word's bits. -/
theorem putField_extract_bit (v image : Dword) (lo w : Nat) :
    (putField v lo (image.extractLsb' lo w)).getLsbD i =
      if lo ≤ i ∧ i < lo + w then image.getLsbD i else v.getLsbD i := by
  rw [getLsbD_putField _ _ _ _ hi, BitVec.getLsbD_extractLsb']
  refine ite_congr rfl (fun h => ?_) fun _ => rfl
  rw [decide_eq_true (by omega), Bool.true_and, Nat.add_sub_cancel' h.1]

theorem putBit_image_bit (v image : Dword) (j : Nat) :
    (putBit v j (image.getLsbD j)).getLsbD i = if i = j then image.getLsbD i else v.getLsbD i := by
  rw [getLsbD_putBit]
  refine ite_congr rfl (fun h => ?_) fun _ => rfl
  subst h
  rw [decide_eq_true hi, Bool.true_and]

/-- Bit `i` of the flags that IRET and POPF leave (43_control_transfer.md R612, 45_flag_misc.md R735). -/
theorem writeFlags_bit (old image : Dword) (wide : Bool) (lvl : Option (BitVec 2)) :
    (writeFlags old image wide lvl).getLsbD i =
      if i = 1 then true
      else if i = 0 ∨ i = 2 ∨ i = 4 ∨ i = 6 ∨ i = 7 ∨ i = 8 ∨ i = 10 ∨ i = 11 ∨ i = 14 then image.getLsbD i
      else if i = 9 then
        (if lvl.all fun l => decide (l.toNat ≤ (old.extractLsb' 12 2).toNat) then image.getLsbD i else old.getLsbD i)
      else if i = 12 ∨ i = 13 then (if lvl.all fun l => l == 0 then image.getLsbD i else old.getLsbD i)
      else if i = 16 then (if wide then image.getLsbD i else old.getLsbD i)
      else if i = 17 then old.getLsbD i
      else false := by
  have ite_bit (c : Prop) [Decidable c] (u v : Dword) :
      (if c then u else v).getLsbD i = if c then u.getLsbD i else v.getLsbD i := apply_ite (·.getLsbD i) c u v
  simp only [writeFlags, fixFlags_bit _ hi, ite_bit, putField_extract_bit hi, putBit_image_bit hi]
  cases lvl with
  | none => interval_cases i <;> simp
  | some l =>
    generalize (old.extractLsb' 12 2).toNat = iopl
    by_cases h : iopl < l.toNat
    · interval_cases i <;> simp [h, not_le.mpr h]
    · interval_cases i <;> simp [h, not_lt.mp h]

end

/-! ## IRET in real-address mode and to the same level -/

section

variable {x : Byte × Word}

@[simp] theorem returnTo_eflags (s : State) (sel : Word) (off : Dword) : (s.returnTo sel off).eflags = s.eflags := by
  cases hpe : s.pe with
  | false => rw [returnTo_real hpe]; rfl
  | true =>
    cases hd : s.descFor sel with
    | none => simp [State.returnTo, hpe, hd]
    | some d => rw [returnTo_prot hpe hd]; exact accessed_eflags s d

/-- `iretDone` in the steps of IRET. -/
theorem iretDone_eq (s : State) (lvl : Option (BitVec 2)) (sel : Word)
    (hlvl : (if s.pe then some s.cpl else none) = lvl)
    (hsel : (if !s.pe then (s.slot s.oszBytes s.oszBytes 32).setWidth 16 else s.retSel) = sel) :
    s.iretDone = ((s.iretStarted.releaseStack (3 * s.oszBytes)).returnTo sel s.retOff).loadFlags s lvl := by
  subst hlvl hsel
  rw [State.loadFlags, returnTo_eflags, releaseStack_eflags]
  rfl

section

variable (hh : s.holdsSlots 0 s.oszBytes 3 = true) (h0 : s.canSlot 0 s.oszBytes = true)
  (h2 : s.canSlot (2 * s.oszBytes) s.oszBytes = true)

include hh h0 h2

/-- The return address lies past the limit, in real-address mode (43_control_transfer.md R609). -/
theorem iret_past (hpe : s.pe = false) (h1 : s.canSlot s.oszBytes s.oszBytes = true)
    (hi : s.inCode s.retOff = false) :
    returnFromException (Tx.start s) = .error (.raise { vec := 13, err := some 0 }) (Tx.iret s) :=
  (iret_real hpe).trans ((iretReal_run hh h0 h2 h1).trans (need_stop hi (raiseGP0_run rfl)))

/-- IRET in real-address mode. -/
theorem iretReal_done (hpe : s.pe = false) (h1 : s.canSlot s.oszBytes s.oszBytes = true)
    (hi : s.inCode s.retOff = true) : returnFromException (Tx.start s) = .ok () ⟨s.iretDone, s, false⟩ := by
  have hdone := iretDone_eq s none _ (if_neg (ne_true_of_eq_false hpe)) (if_pos (by rw [hpe]; rfl))
  rw [returnTo_real ((releaseStack_table s.iretStarted _ 0).1.trans hpe)] at hdone
  rw [hdone]
  exact (iret_real hpe).trans <| (iretReal_run hh h0 h2 h1).trans <| bind_then (need_run hi) <|
    bind_then (upd_run _ _) <| bind_then (upd_run _ _) (upd_run _ _)

variable (hpe : s.pe = true) (hnt : s.nt = false) (h1 : s.canSlot s.oszBytes 2 = true)

include hpe hnt h1

/-- An image that would set VM at level 0 (10_state.md R63). -/
theorem iret_virtual8086 (hvm : (s.oszBytes == 4 && s.retFlags.getLsbD 17 && s.cpl == 0) = true) :
    returnFromException (Tx.start s) = .error (.refuse .virtual8086) (Tx.iret s) :=
  (iretProt_run hh h0 h2 hpe hnt h1).trans (need_stop (by rw [hvm]; rfl) rfl)

variable (hvm : (s.oszBytes == 4 && s.retFlags.getLsbD 17 && s.cpl == 0) = false)

include hvm

/-- A return address that a check refuses. -/
theorem iret_fault (hr : s.tableRam s.retSel = true) (hf : s.returnFault s.retSel s.retOff = some x) :
    returnFromException (Tx.start s) = .error (.raise { vec := x.1, err := some x.2 }) (Tx.iret s) := by
  refine (iretProt_run hh h0 h2 hpe hnt h1).trans (bind_then (need_run (by rw [hvm]; rfl)) ?_)
  obtain hsel | ⟨hsel, d, hd, hlvl, hlim, rfl⟩ := returnFault_cases hf
  · exact bind_run_error (returnCS_fault (t := Tx.iret s) rfl hr hsel)
  · exact bind_then (returnCS_run (t := Tx.iret s) hd hsel)
      (if_then (by rw [hlvl]) (need_stop (by simpa using hlim) (raiseGP0_run rfl)))

/-- IRET to the same level. -/
theorem iretProt_done (h : s.canReturnTo s.retSel s.retOff = true) :
    ∃ b, returnFromException (Tx.start s) = .ok () ⟨s.iretDone, b, false⟩ := by
  obtain ⟨d, hd, hf, hlvl, hoff⟩ := canReturnTo_prot hpe h
  obtain ⟨hpe', hd', -⟩ := releaseStack_table s.iretStarted (3 * s.oszBytes) s.retSel
  obtain ⟨hp, hk⟩ := descFor_ram (hd'.trans hd)
  rw [iretDone_eq s (some s.cpl) s.retSel (if_pos hpe) (if_neg (by rw [hpe]; decide)),
    returnTo_prot (hpe'.trans hpe) (hd'.trans hd)]
  exact ⟨_, (iretProt_run hh h0 h2 hpe hnt h1).trans <| bind_then (need_run (by rw [hvm]; rfl)) <|
    bind_then (returnCS_run (t := Tx.iret s) hd hf) <| if_then (by rw [hlvl]) <|
    bind_then (need_run (decide_eq_true hoff)) <| bind_then (upd_run _ _) <| bind_then (loadCS_run _ d _ _ hp hk) (upd_run _ _)⟩

end

/-- IRET that can be made. -/
theorem iret_run (h : s.canIret = true) : ∃ b, returnFromException (Tx.start s) = .ok () ⟨s.iretDone, b, false⟩ := by
  cases hpe : s.pe with
  | false =>
    simp only [State.canIret, hpe, Bool.not_false, if_true, Bool.and_eq_true] at h
    obtain ⟨⟨⟨hh, h0⟩, h2⟩, h1, hi⟩ := h
    exact ⟨s, iretReal_done hh h0 h2 hpe h1 hi⟩
  | true =>
    simp only [State.canIret, hpe, Bool.not_true, Bool.false_eq_true, if_false, Bool.and_eq_true,
      Bool.not_eq_true'] at h
    obtain ⟨⟨⟨hh, h0⟩, h2⟩, ⟨⟨hnt, h1⟩, hvm⟩, hret⟩ := h
    exact iretProt_done hh h0 h2 hpe hnt h1 hvm hret

end

/-! ## IRET to another task -/

/-- IRET with NT = 1 from where the back link is read (47_multitasking.md R880). -/
def linkReturn (link : Word) : M Unit := do
  need (!isNull link && !ti link) (raiseTS link)
  let d ← fetchDescOr link (raiseTS link)
  need (!(!d.s && d.typ == 3)) (refuse .descriptor286)
  need (!d.s && d.typ == 11) (raiseTS link)
  need d.p (raiseNP link)
  taskSwitch link d .iret (← look (·.nextEip)) (← look (·.eflags)) none

/-- The back link in the TSS of the current task. -/
def State.backLink (s : State) : Word := s.valueAt 16 (addrsFrom s.tr.base 2)

theorem iret_link (hpe : s.pe = true) (hnt : s.nt = true) (hp : s.pg = false) (hr : s.ramAt s.tr.base 2 = true) :
    returnFromException (Tx.start s) = linkReturn s.backLink (Tx.iret s) :=
  (iret_task hpe hnt).trans <| bind_then (look_run _ _) <|
    bind_then (linRead_run s.tr.base 2 false (Tx.iret s) hp ((ramAt_iff ..).mp hr)) rfl

section

variable {link : Word} {d : Desc} {t : Tx}

theorem linkReturn_noTss (hx : t.ext = false) (h : isNull link = true ∨ ti link = true) :
    linkReturn link t = .error (.raise { vec := 10, err := some (selCode link) }) t :=
  need_stop (by obtain h | h := h <;> simp [h]) (raiseSel_run 10 link hx)

theorem linkReturn_noDesc (hx : t.ext = false) (hr : t.cur.tableRam link = true) (hd : t.cur.descFor link = none) :
    linkReturn link t = .error (.raise { vec := 10, err := some (selCode link) }) t :=
  need_or_later (fun _ => raiseSel_run 10 link hx) fun _ =>
    bind_run_error ((fetchDescOr_none hr hd).trans (raiseSel_run 10 link hx))

section

variable (hn : isNull link = false) (hti : ti link = false) (hd : t.cur.descFor link = some d)

include hn hti hd

/-- The back link names a descriptor of the GDT. -/
theorem linkReturn_desc :
    linkReturn link t =
      (do need (!(!d.s && d.typ == 3)) (refuse .descriptor286)
          need (!d.s && d.typ == 11) (raiseTS link)
          need d.p (raiseNP link)
          taskSwitch link d .iret (← look (·.nextEip)) (← look (·.eflags)) none : M Unit) t :=
  bind_then (need_run (by rw [hn, hti]; rfl)) (bind_then (fetchDescOr_run hd) rfl)

theorem linkReturn_wrong (hx : t.ext = false) (h : d.s = true ∨ d.typ ≠ 11 ∧ d.typ ≠ 3) :
    linkReturn link t = .error (.raise { vec := 10, err := some (selCode link) }) t := by
  refine (linkReturn_desc hn hti hd).trans (bind_then (need_run ?_) (need_stop ?_ (raiseSel_run 10 link hx)))
  all_goals obtain h | ⟨h11, h3⟩ := h
  all_goals simp_all

theorem linkReturn_286 (hs : d.s = false) (ht : d.typ = 3) : linkReturn link t = .error (.refuse .descriptor286) t :=
  (linkReturn_desc hn hti hd).trans (need_stop (by rw [hs, ht]; rfl) rfl)

variable (hs : d.s = false) (ht : d.typ = 11)

include hs ht

/-- The back link names a busy 386 TSS, which must be present. -/
theorem linkReturn_busy :
    linkReturn link t =
      (do need d.p (raiseNP link)
          taskSwitch link d .iret (← look (·.nextEip)) (← look (·.eflags)) none : M Unit) t :=
  (linkReturn_desc hn hti hd).trans <| bind_then (need_run (by rw [hs, ht]; rfl)) <|
    bind_then (need_run (by rw [hs, ht]; rfl)) rfl

theorem linkReturn_absent (hx : t.ext = false) (hp : d.p = false) :
    linkReturn link t = .error (.raise { vec := 11, err := some (selCode link) }) t :=
  (linkReturn_busy hn hti hd hs ht).trans (need_stop hp (raiseSel_run 11 link hx))

theorem linkReturn_run (hp : d.p = true) :
    linkReturn link t = taskSwitch link d .iret t.cur.nextEip t.cur.eflags none t :=
  (linkReturn_busy hn hti hd hs ht).trans <| bind_then (need_run hp) <|
    bind_then (look_run _ t) (bind_then (look_run _ t) rfl)

end

end

/-- Settles O46: the mode, NT and the level of the return address say which IRET it is. -/
theorem returnFromException_holds : Obligations.ReturnFromException := by
  intro s hl
  refine ⟨fun h => ?_, fun hpe hnt hcpl ho hh h0 h1 h2 hvm => ?_,
    fun old image wide lvl i hi => writeFlags_bit hi old image wide lvl,
    ⟨fun hmode hh => instr_trapped hl (iret_noFrame hmode hh), fun hpe hh ⟨h0, h1, _, h2⟩ hi => ?_,
      fun hpe hnt hh ⟨h0, _, h1, h2⟩ hvm hr vec code hf => ?_⟩, fun hpe hnt hp hr => ?_⟩
  · obtain ⟨b, hb⟩ := iret_run h
    exact instr_completes hl hb
  · have hn : s.oszBytes = 4 := if_pos ho
    refine instr_refused hl (iret_virtual8086 (hn ▸ hh) (hn ▸ h0) (hn ▸ h2) hpe hnt (hn ▸ h1) ?_)
    rw [State.retFlags, hn, hvm, hcpl]
    rfl
  · exact instr_trapped hl (iret_past hh h0 h2 hpe h1 hi)
  · exact instr_trapped hl (iret_fault hh h0 h2 hpe hnt h1 hvm hr hf)
  · have hlink := iret_link hpe hnt hp hr
    refine ⟨fun h => instr_trapped hl (hlink.trans (linkReturn_noTss rfl h)),
      fun hr hd => instr_trapped hl (hlink.trans (linkReturn_noDesc (t := Tx.iret s) rfl hr hd)),
      fun d hn hti hd => ⟨fun h => ?_, fun hs ht => ?_, fun hs ht hp => ?_, fun hs ht hp hc => ?_⟩⟩
    · exact instr_trapped hl (hlink.trans (linkReturn_wrong (t := Tx.iret s) hn hti hd rfl h))
    · exact instr_refused hl (hlink.trans (linkReturn_286 (t := Tx.iret s) hn hti hd hs ht))
    · exact instr_trapped hl (hlink.trans (linkReturn_absent (t := Tx.iret s) hn hti hd hs ht rfl hp))
    · exact instr_switches (t := Tx.iret s) hl (hlink.trans (linkReturn_run (t := Tx.iret s) hn hti hd hs ht hp)) rfl hc

end Sys2Proof.Machine
end

section
/-! PROOFS. INT n, INT 3 and INTO: delivery in real-address mode and to a handler of the same level, then, with the
delivery to an inner level and through a task gate of earlier files, what the three instructions do (O45). -/

namespace Sys2Proof.Machine

variable {s : State}

/-! ## Delivery without a change of level -/

section

variable {v : Byte} {kind : EventKind} {err : Option Word} {flags eip : Dword} {g d : Desc} {t : Tx}

/-- What `gateFits` says. -/
theorem gateFits_iff : s.gateFits g kind = true ↔
    g.s = false ∧ (g.typ = 14 ∨ g.typ = 15) ∧ g.p = true ∧
      (kind != .software || decide (s.cpl.toNat ≤ g.dpl.toNat)) = true ∧ isNull g.gateSel = false := by
  simp [State.gateFits, and_assoc]

/-- What `handlerFits` says. -/
theorem handlerFits_iff : s.handlerFits g d = true ↔
    d.isCode = true ∧ d.p = true ∧ d.dpl.toNat ≤ s.cpl.toNat ∧ (d.conforming || d.dpl == s.cpl) = true ∧
      g.gateOff.toNat ≤ d.limit32.toNat := by
  simp [State.handlerFits, and_assoc]

/-- What `canEnterSame` says. -/
theorem canEnterSame_iff : s.canEnterSame v kind err = true ↔
    s.pe = true ∧ s.segs.ss.room s.sp 4 (3 + errCount err) = true ∧ s.canPushAll 4 (3 + errCount err) = true ∧
      ∃ g, s.gateFor v = some g ∧ s.gateFits g kind = true ∧
        ∃ d, s.descFor g.gateSel = some d ∧ s.handlerFits g d = true := by
  simp [State.canEnterSame, Option.any_eq_true, and_assoc]

/-- A gate that the event may use leads to its handler (60_exceptions.md R940). -/
theorem deliver_gate (hpe : t.cur.pe = true) (hg : t.cur.gateFor v = some g) (hfit : t.cur.gateFits g kind = true) :
    deliver v kind err eip t = enterGate g (flagsImage t.cur.eflags v kind) eip err t := by
  obtain ⟨hs, ht, hp, hdpl, -⟩ := gateFits_iff.mp hfit
  refine bind_then (look_run _ t) <| if_then hpe <| bind_then (idtGate_run hg) <| bind_then (need_run ?_) <|
    bind_then (need_run ?_) <| bind_then (look_run _ t) <| bind_then (need_run hdpl) <| bind_then (need_run hp) <|
    bind_then (look_run _ t) <| if_else ?_ rfl
  all_goals obtain ht | ht := ht
  all_goals simp [hs, ht]

/-- The frame goes on the current stack, the handler keeps the level. -/
theorem enterSame_run (hroom : t.cur.segs.ss.room t.cur.sp 4 (3 + errCount err) = true)
    (hpush : t.cur.canPushAll 4 (3 + errCount err) = true) (hd : t.cur.descFor g.gateSel = some d)
    (hoff : g.gateOff.toNat ≤ d.limit32.toNat) :
    ∃ b, enterSame g d flags eip err t = .ok ()
      ⟨((t.cur.drawn (1 + errCount err)).pushedAll 4 (t.cur.frame 0 flags eip err)).enterCode g.gateSel t.cur.cpl d
        g.gateOff, b, t.ext⟩ := by
  have hlen : (t.cur.frame 0 flags eip err).length = 3 + errCount err := by cases err <;> rfl
  obtain ⟨hp, hk⟩ := descFor_ram hd
  have hframe := handlerFrame_run flags eip err t
  have hpushed := pushAll_run 4 (t.cur.frame 0 flags eip err)
    ⟨t.cur.drawn (1 + errCount err), t.base.drawn (1 + errCount err), t.ext⟩ (by rw [hlen]; exact hpush)
  obtain ⟨m, r, hu⟩ := pushedAll_eq (t.cur.drawn (1 + errCount err)) 4 (t.cur.frame 0 flags eip err)
  simp only [hu] at hpushed ⊢
  exact ⟨_, bind_then (look_run _ t) <| bind_then (need_run hroom) <| bind_then (need_run (decide_eq_true hoff)) <|
    bind_then (look_run _ t) <| bind_then hframe <| bind_then hpushed <| bind_then (look_run _ _) <|
    loadCS_run _ d _ _ hp hk⟩

/-- The flags of the program stand until the handler has been entered. -/
theorem enteredCode_eflags (s : State) (n k : Nat) (vs : List Dword) (sel : Word) (lvl : BitVec 2) (d : Desc)
    (off : Dword) : (((s.drawn n).pushedAll k vs).enterCode sel lvl d off).eflags = s.eflags := by
  obtain ⟨m, r, hu⟩ := pushedAll_eq (s.drawn n) k vs
  rw [hu]
  exact accessed_eflags _ d

/-- Delivery to a handler of the same level (60_exceptions.md R940, R947). -/
theorem deliver_same (h : t.cur.canEnterSame v kind err = true) :
    ∃ b, deliver v kind err eip t = .ok () ⟨t.cur.enteredSame v kind err eip, b, t.ext⟩ := by
  obtain ⟨hpe, hroom, hpush, g, hg, hfit, d, hd, hh⟩ := canEnterSame_iff.mp h
  obtain ⟨-, -, -, -, hn⟩ := gateFits_iff.mp hfit
  obtain ⟨hcode, hp, hle, hsame, hoff⟩ := handlerFits_iff.mp hh
  obtain ⟨b, hb⟩ := enterSame_run (flags := flagsImage t.cur.eflags v kind) (eip := eip) hroom hpush hd hoff
  have hlevel : ¬ (!d.conforming && decide (d.dpl.toNat < t.cur.cpl.toNat)) = true := by
    cases hc : d.conforming
    · have : d.dpl = t.cur.cpl := by simpa [hc] using hsame
      simp [this]
    · simp
  refine ⟨b, (deliver_gate hpe hg hfit).trans <| bind_then (need_run (by rw [hn]; rfl)) <|
    bind_then (fetchDescOr_run hd) <| bind_then (look_run _ t) <| bind_then (need_run hcode) <|
    bind_then (need_run (decide_eq_true hle)) <| bind_then (need_run hp) <| if_else hlevel <| bind_then hb <|
    (upd_run _ _).trans ?_⟩
  simp only [State.enteredSame, hg, hd, enteredCode_eflags]

/-- What `canEnterReal` says. -/
theorem canEnterReal_iff : s.canEnterReal v = true ↔
    s.pe = false ∧ s.pg = false ∧ 4 * v.toNat + 3 ≤ s.idtr.limit.toNat ∧
      (s.ramAt (s.idtr.base + BitVec.ofNat 32 (4 * v.toNat)) 2 = true ∧
        s.ramAt (s.idtr.base + BitVec.ofNat 32 (4 * v.toNat) + 2) 2 = true) ∧
      s.segs.ss.room s.sp 2 3 = true ∧ s.canPushAll 2 3 = true := by
  simp only [State.canEnterReal, State.ramAt, List.all_append, Bool.and_eq_true, Bool.not_eq_true', decide_eq_true_eq,
    and_assoc]

/-- Two bytes, read as an offset, are their word widened. -/
theorem leVal_word {bs : List Byte} (h : bs.length = 2) : leVal 32 bs = (leVal 16 bs).setWidth 32 := by
  obtain ⟨a, b, rfl⟩ := List.length_eq_two.mp h
  have ha := a.isLt
  have hb := b.isLt
  refine BitVec.eq_of_toNat_eq ?_
  simp only [leVal, leNat, BitVec.toNat_setWidth, BitVec.toNat_ofNat]
  omega

/-- Delivery in real-address mode, through the vector table (60_exceptions.md R960). -/
theorem deliver_real (h : t.cur.canEnterReal v = true) :
    deliver v kind err eip t = .ok () { t with cur := t.cur.enteredReal v eip } := by
  obtain ⟨hpe, hp, hlim, ⟨hip, hcs⟩, hroom, hpush⟩ := canEnterReal_iff.mp h
  have hpushed := pushAll_run 2 [t.cur.eflags, t.cur.segs.cs.sel.setWidth 32, eip] t hpush
  refine bind_then (look_run _ t) <| if_else (ne_true_of_eq_false hpe) <| bind_then (look_run _ t) <|
    bind_then (need_run (decide_eq_true hlim)) <| bind_then (linRead_run _ 2 false t hp ((ramAt_iff ..).mp hip)) <|
    bind_then (linRead_run _ 2 false t hp ((ramAt_iff ..).mp hcs)) <| bind_then (look_run _ t) <|
    bind_then (need_run hroom) <| bind_then (look_run _ t) <| bind_then (look_run _ t) <| bind_then hpushed <|
    bind_then (upd_run _ _) <| (upd_run _ _).trans ?_
  rw [leVal_word (by rfl)]
  rfl

/-- Delivery without a change of level, in either mode. -/
theorem deliver_entered (h : t.cur.canEnter v kind err = true) :
    ∃ b, deliver v kind err eip t = .ok () ⟨t.cur.entered v kind err eip, b, t.ext⟩ := by
  unfold State.canEnter at h
  unfold State.entered
  split
  · exact deliver_same (by simpa [*] using h)
  · exact ⟨_, deliver_real (by simpa [*] using h)⟩

/-- The error code that names an IDT entry, as a number (60_exceptions.md R930). -/
theorem idtCode_eq : ∀ v : Byte, idtCode v = v.setWidth 16 * 8 + 2 := by decide

/-- A gate that software may not use (60_exceptions.md R940). -/
theorem deliver_denied (hx : t.ext = false) (hpe : t.cur.pe = true) (hg : t.cur.gateFor v = some g) (hs : g.s = false)
    (ht : g.typ = 5 ∨ g.typ = 14 ∨ g.typ = 15) (hdpl : g.dpl.toNat < t.cur.cpl.toNat) :
    deliver v .software err eip t = .error (.raise { vec := 13, err := some (v.setWidth 16 * 8 + 2) }) t := by
  have hcode : idtCode v ||| bitVal t.ext = v.setWidth 16 * 8 + 2 := by rw [hx, ← idtCode_eq]; exact BitVec.or_zero
  have hraise : (raiseCode 13 (idtCode v) : M Unit) t =
      .error (.raise { vec := 13, err := some (v.setWidth 16 * 8 + 2) }) t := by
    rw [raiseCode_run, hcode]
  refine bind_then (look_run _ t) <| if_then hpe <| bind_then (idtGate_run hg) <| bind_then (need_run ?_) <|
    bind_then (need_run ?_) <| bind_then (look_run _ t) <| need_stop (by simpa using hdpl) hraise
  all_goals obtain ht | ht | ht := ht
  all_goals simp [hs, ht]

end

/-! ## The three instructions -/

/-- INT n, INT 3 and INTO with overflow have the outcome `o` of vector `v`, as O45 puts it. -/
def State.interrupts (s : State) (v : Byte) (o : Outcome) : Prop :=
  exec (.intIb v) s = o ∧ (v = 3 → exec .int3 s = o) ∧ (v = 4 → s.of = true → exec .into s = o)

/-- INTO with overflow is INT 4. -/
theorem intoBody_overflow (h : s.of = true) : intoBody (Tx.start s) = softwareInt 4 (Tx.start s) :=
  bind_then (look_run _ _) (if_then h rfl)

/-- The three run the delivery of their vector. -/
theorem interrupts_of_deliver {v : Byte} {o : Outcome}
    (h : ∀ body, body (Tx.start s) = deliver v .software none s.nextEip (Tx.start s) → instr false body s = o) :
    s.interrupts v o := by
  have hint : softwareInt v (Tx.start s) = deliver v .software none s.nextEip (Tx.start s) :=
    bind_then (look_run _ _) rfl
  refine ⟨h _ hint, fun h3 => ?_, fun h4 hof => ?_⟩
  · subst h3
    exact h _ hint
  · subst h4
    exact h _ ((intoBody_overflow hof).trans hint)

/-- The vector is delivered without a change of level. -/
theorem interrupts_entered (hl : s.ctx.lock = false) {v : Byte} (h : s.canEnter v .software none = true) :
    s.interrupts v (.next (complete s (s.entered v .software none s.nextEip))) := by
  obtain ⟨b, hb⟩ := deliver_entered (t := Tx.start s) h
  exact interrupts_of_deliver fun body hbody => instr_completes hl (hbody.trans hb)

/-- Settles O45: each outcome of the delivery is one of the three instructions. -/
theorem softwareInterrupts : Obligations.SoftwareInterrupts := by
  intro s hl
  refine ⟨fun v h => (interrupts_entered hl h).1, fun h => (interrupts_entered hl h).2.1 rfl,
    fun hof h => (interrupts_entered hl h).2.2 rfl hof, fun v g hpe hg hs => ⟨fun ht hdpl => ?_, fun d sd h => ?_,
      fun d h => ⟨fun t hv => ?_, fun t vec code hv hq => ?_⟩⟩⟩
  · exact interrupts_of_deliver fun body hbody =>
      instr_trapped hl (hbody.trans (deliver_denied (t := Tx.start s) rfl hpe hg hs ht hdpl))
  · obtain ⟨b, hb⟩ := deliver_inner (t := Tx.start s) h
    exact interrupts_of_deliver fun body hbody => instr_completes hl (hbody.trans hb)
  all_goals
    obtain ⟨-, -, -, -, -, hc⟩ := id h
    refine interrupts_of_deliver fun body hbody => ?_
    have hswitch := instr_switches (t := Tx.start s) (lockable := false) hl
      (hbody.trans (deliver_switch (t := Tx.start s) h rfl)) rfl hc
  · exact hswitch.1 t hv
  · exact hswitch.2 t vec code hv hq

end Sys2Proof.Machine
end

section
/-! PROOFS. The I/O permission map, IN and OUT, the elements of the string instructions and their repetition, and the
obligations about them (O50, O51, O52). -/

namespace Sys2Proof.Machine

variable {s : State} {t : Tx}

/-! ## The I/O permission map -/

section

variable {port : Word} {n : Nat}

/-- One byte, read as a value. -/
theorem leVal_singleton (b : Byte) : leVal 8 [b] = b := by simp [leVal, leNat]

/-- Bytes of the TSS inside its limit are read without any other effect. -/
theorem linRead_tss {off : Nat} (hr : t.cur.tssRam = true) (hoff : off + n ≤ t.cur.tr.limit.toNat + 1) :
    linRead (t.cur.tr.base + BitVec.ofNat 32 off) n false t =
      .ok ((addrsFrom (t.cur.tr.base + BitVec.ofNat 32 off) n).map t.cur.byteAt) t := by
  simp only [State.tssRam, Bool.and_eq_true, Bool.not_eq_true'] at hr
  obtain ⟨hpg, hram⟩ := hr
  exact linRead_run _ n false t hpg (ramAt_slice hram hoff)

/-- The bit of one port is tested (44_string_io.md R701). -/
theorem portAllowed_run (hr : t.cur.tssRam = true) (p : Nat) :
    portAllowed t.cur.tr t.cur.mapBase p t = .ok (t.cur.portOpen p) t := by
  unfold State.portOpen
  by_cases hin : p ≤ 0xFFFF ∧ t.cur.mapBase + p / 8 ≤ t.cur.tr.limit.toNat
  · obtain ⟨hp, hoff⟩ := hin
    have hbyte := linRead_tss (n := 1) hr (Nat.add_le_add_right hoff 1)
    refine if_else (by simp [hp, hoff]) (bind_then hbyte ?_)
    simp [addrsFrom, leVal_singleton, hp, hoff]
  · refine if_then (by simp; omega) ?_
    simp [hin]

/-- The ports are tested one by one: all of them must be open (44_string_io.md R701). -/
theorem portsAllowed_run (hr : t.cur.tssRam = true) (ps : List Nat) :
    portsAllowed t.cur.tr t.cur.mapBase ps t = .ok (ps.all t.cur.portOpen) t := by
  induction ps with
  | nil => rfl
  | cons p ps ih =>
    refine bind_then (portAllowed_run hr p) ?_
    cases hp : t.cur.portOpen p
    · simp [hp]
    · simp [hp, ih]

/-- The map decides (44_string_io.md R701). -/
theorem bitmapAllows_run (hr : t.cur.tssRam = true) : bitmapAllows port n t = .ok (t.cur.mapAllows port n) t := by
  refine bind_then (look_run _ t) ?_
  unfold State.mapAllows
  by_cases hnone : (!t.cur.tr.valid || decide (t.cur.tr.limit.toNat < 0x67)) = true
  · refine if_then hnone ?_
    rcases Bool.or_eq_true_iff.mp hnone with hv | hlim
    · simp [show t.cur.tr.valid = false by simpa using hv]
    · simp [Nat.not_le.mpr (of_decide_eq_true hlim)]
  · obtain ⟨hv, hlim⟩ : t.cur.tr.valid = true ∧ 0x67 ≤ t.cur.tr.limit.toNat := by simpa using hnone
    refine if_else hnone (bind_then (linRead_tss (off := 0x66) (n := 2) hr (by omega)) ?_)
    by_cases hbase : t.cur.mapBase < t.cur.tr.limit.toNat
    · refine if_else (Nat.not_le.mpr hbase) ((portsAllowed_run hr _).trans ?_)
      simp [hv, hlim, hbase]
    · refine if_then (Nat.not_lt.mp hbase) ?_
      simp [hbase]

/-- The map is asked where the level alone does not allow every port (44_string_io.md R700). -/
theorem asksMap_eq (s : State) : (s.pe && decide (s.iopl.toNat < s.cpl.toNat)) = !s.portsFree := by
  simp [State.portsFree]

/-- The level, or else the map, allows the access (44_string_io.md R700). -/
theorem ioPermission_run (h : t.cur.canIo port n = true) : ioPermission port n t = .ok () t := by
  refine bind_then (look_run _ t) ?_
  cases hf : t.cur.portsFree
  · obtain ⟨hr, hm⟩ : t.cur.tssRam = true ∧ t.cur.mapAllows port n = true := by simpa [State.canIo, hf] using h
    exact if_then (by rw [asksMap_eq, hf]; rfl) (bind_then (bitmapAllows_run hr) (need_run hm))
  · exact if_else (by rw [asksMap_eq, hf]; exact Bool.false_ne_true) rfl

/-- Neither does: the general protection fault (44_string_io.md R700). -/
theorem ioPermission_fault (hx : t.ext = false) (hf : t.cur.portsFree = false) (hr : t.cur.tssRam = true)
    (hm : t.cur.mapAllows port n = false) :
    ioPermission port n t = .error (.raise { vec := 13, err := some 0 }) t := by
  refine bind_then (look_run _ t) (if_then (by rw [asksMap_eq, hf]; rfl) (bind_then (bitmapAllows_run hr) ?_))
  rw [need_fail hm, raiseGP0, raiseCode_run, hx]
  rfl

end

/-! ## IN and OUT -/

section

variable {width : M Nat} {portOf : M Word} {w : Nat} {port : Word}

/-- A port gives a value of the environment, and the access is recorded (20_memory.md R152). -/
theorem ioRead_run (port : Word) (w : Nat) (t : Tx) :
    ioRead port w t =
      .ok ((t.cur.any 0).setWidth w)
        { t with cur := t.cur.portIn port w
                 base := (t.base.drawn 1).event
                   (.portRead port (w / 8) (((t.cur.any 0).setWidth w : BitVec w).setWidth 32)) } := rfl

/-- IN that may access its port (44_string_io.md R670). -/
theorem exec_in (hl : s.ctx.lock = false) (hw : width (Tx.start s) = .ok w (Tx.start s))
    (hp : portOf (Tx.start s) = .ok port (Tx.start s)) (h : s.canIo port (w / 8) = true) :
    seqInstr false (inBody width portOf) s =
      .next (s.finish ((s.portIn port w).setGprLow .eax ((s.any 0).setWidth w : BitVec w))) :=
  seqInstr_next hl <| bind_then hw <| bind_then hp <| bind_then (ioPermission_run (t := Tx.start s) h) <|
    bind_then (ioRead_run port w _) (upd_run _ _)

/-- OUT that may access its port (44_string_io.md R671). -/
theorem exec_out (hl : s.ctx.lock = false) (hw : width (Tx.start s) = .ok w (Tx.start s))
    (hp : portOf (Tx.start s) = .ok port (Tx.start s)) (h : s.canIo port (w / 8) = true) :
    seqInstr false (outBody width portOf) s = .next (s.finish (s.portOut port (s.gprLow w .eax))) :=
  seqInstr_next hl <| bind_then hw <| bind_then hp <| bind_then (ioPermission_run (t := Tx.start s) h) <|
    bind_then (look_run _ _) (updBoth_run _ _)

/-- IN at a port that the map does not open (44_string_io.md R700). -/
theorem exec_in_fault (hl : s.ctx.lock = false) (hf : s.portsFree = false) (hr : s.tssRam = true)
    (hw : width (Tx.start s) = .ok w (Tx.start s)) (hp : portOf (Tx.start s) = .ok port (Tx.start s))
    (hm : s.mapAllows port (w / 8) = false) :
    seqInstr false (inBody width portOf) s = s.trapped 13 (some 0) :=
  seqInstr_trapped hl (bind_then hw <| bind_then hp <| bind_run_error <|
    ioPermission_fault (t := Tx.start s) rfl hf hr hm) rfl

/-- OUT at a port that the map does not open (44_string_io.md R700). -/
theorem exec_out_fault (hl : s.ctx.lock = false) (hf : s.portsFree = false) (hr : s.tssRam = true)
    (hw : width (Tx.start s) = .ok w (Tx.start s)) (hp : portOf (Tx.start s) = .ok port (Tx.start s))
    (hm : s.mapAllows port (w / 8) = false) :
    seqInstr false (outBody width portOf) s = s.trapped 13 (some 0) :=
  seqInstr_trapped hl (bind_then hw <| bind_then hp <| bind_run_error <|
    ioPermission_fault (t := Tx.start s) rfl hf hr hm) rfl

end

/-- Settles O51: each form takes its width and its port, may access the port, and reads or writes it. -/
theorem portAccesses : Obligations.PortAccesses := by
  intro s hl
  exact ⟨fun ib h => ⟨exec_in hl rfl rfl h, exec_out hl rfl rfl h⟩,
    fun ib h => ⟨exec_in hl rfl rfl h, exec_out hl rfl rfl h⟩,
    fun h => ⟨exec_in hl rfl rfl h, exec_out hl rfl rfl h⟩,
    fun h => ⟨exec_in hl rfl rfl h, exec_out hl rfl rfl h⟩⟩

/-! ## String elements -/

/-- The meaning of one element of each string instruction (44_string_io.md R661 to R665, R672, R673). -/
def StringOp.body : StringOp → Nat → M Unit
  | .movs => moveElement
  | .cmps => compareElement
  | .scas => scanElement
  | .lods => loadElement
  | .stos => storeElement
  | .ins => inElement
  | .outs => outElement

/-- `Terminate` of each string instruction (44_string_io.md R666 to R668). -/
def StringOp.stop : StringOp → RepKind → State → Bool
  | .cmps | .scas => untilZf
  | _ => never

/-- The width of byte elements, or of the operand size, as a computation. -/
def elementWidth (byte : Bool) : M Nat := if byte then pure 8 else look (·.osz)

/-- Every string instruction repeats its element. -/
theorem exec_stringForm {i : Instr} {op : StringOp} {byte : Bool} (hi : stringForm i = some (op, byte)) :
    exec i s = instr false (repeated op.stop (elementWidth byte) op.body) s := by
  cases i with
  | movsb | movsv | cmpsb | cmpsv | scasb | scasv | lodsb | lodsv | stosb | stosv | insb | insv | outsb | outsv =>
    cases hi
    rfl
  | _ => exact absurd hi (Option.some_ne_none _).symm

theorem elementWidth_run (byte : Bool) (t : Tx) : elementWidth byte t = .ok (t.cur.elementBits byte) t := by
  cases byte <;> rfl

/-- The model's end of a repetition is the one O50 speaks of. -/
theorem StringOp.stop_eq_ends (op : StringOp) (k : RepKind) (s : State) : op.stop k s = s.ends op k := by
  cases op <;> cases k <;> rfl

/-- The source element is read. -/
theorem readSource_run {w : Nat} (h : t.cur.reachable t.cur.dataSeg t.cur.srcOff (w / 8) false = true) :
    readSource w t = .ok (t.cur.load t.cur.dataSeg t.cur.srcOff (w / 8) w) t :=
  bind_then (look_run _ t) (bind_then (look_run _ t) (memRead_run _ _ _ w t h))

/-- The destination element is read. -/
theorem readDest_run {w : Nat} (h : t.cur.reachable .es t.cur.dstOff (w / 8) false = true) :
    readDest w t = .ok (t.cur.load .es t.cur.dstOff (w / 8) w) t :=
  bind_then (look_run _ t) (memRead_run _ _ _ w t h)

/-- One element of INS: the value of the port goes to the addresses that were checked before (44_string_io.md R672). -/
theorem inElement_run {w : Nat} (hio : t.cur.canIo (t.cur.gprLow 16 .edx) (w / 8) = true)
    (hdst : t.cur.reachable .es t.cur.dstOff (w / 8) true = true) :
    ∃ b, inElement w t = .ok () ⟨t.cur.element .ins w, b, t.ext⟩ := by
  obtain ⟨-, -, -, -, hram⟩ := (reachable_iff ..).mp hdst
  exact ⟨_, bind_then (look_run _ t) <| bind_then (ioPermission_run hio) <| bind_then (look_run _ t) <|
    bind_then (memPlan_run _ _ _ _ t hdst) <| bind_then (ioRead_run _ w t) <|
    bind_then (writePhys_run _ _ _ hram) (upd_run _ _)⟩

/-- Each element whose accesses can be made does what `element` says. -/
theorem StringOp.body_run (op : StringOp) {w : Nat} (h : t.cur.canElement op w = true) :
    ∃ b, op.body w t = .ok () ⟨t.cur.element op w, b, t.ext⟩ := by
  cases op with
  | movs =>
    obtain ⟨hsrc, hdst⟩ := Bool.and_eq_true_iff.mp h
    exact ⟨_, bind_then (readSource_run hsrc) <| bind_then (look_run _ t) <|
      bind_then (memWrite_run _ _ _ _ t hdst) (upd_run _ _)⟩
  | cmps =>
    obtain ⟨hsrc, hdst⟩ := Bool.and_eq_true_iff.mp h
    exact ⟨_, bind_then (readSource_run hsrc) <| bind_then (readDest_run hdst) (upd_run _ t)⟩
  | scas => exact ⟨_, bind_then (readDest_run h) (upd_run _ t)⟩
  | lods => exact ⟨_, bind_then (readSource_run h) (upd_run _ t)⟩
  | stos =>
    exact ⟨_, bind_then (look_run _ t) <| bind_then (look_run _ t) <|
      bind_then (memWrite_run _ _ _ _ t h) (upd_run _ _)⟩
  | ins =>
    obtain ⟨hio, hdst⟩ := Bool.and_eq_true_iff.mp h
    exact inElement_run hio hdst
  | outs =>
    obtain ⟨hio, hsrc⟩ := Bool.and_eq_true_iff.mp h
    exact ⟨_, bind_then (look_run _ t) <| bind_then (ioPermission_run hio) <| bind_then (readSource_run hsrc) <|
      bind_then (updBoth_run _ t) (upd_run _ _)⟩

/-! ## Repetition -/

section

variable {stop : RepKind → State → Bool} {width : M Nat} {element : Nat → M Unit} {w : Nat} {u b : State} {x : Bool}

/-- Without a repeat prefix there is one element (44_string_io.md R660). -/
theorem repeated_once (hw : width t = .ok w t) (hrep : t.cur.ctx.rep = none) (he : element w t = .ok () ⟨u, b, x⟩) :
    repeated stop width element t = .ok () ⟨u.advance, b, x⟩ := by
  refine bind_then hw (bind_then (look_run _ t) ?_)
  rw [hrep]
  exact bind_then he (upd_run _ _)

/-- A repetition with a count of 0 does nothing (44_string_io.md R666). -/
theorem repeated_zero {k : RepKind} (hw : width t = .ok w t) (hrep : t.cur.ctx.rep = some k) (hc : t.cur.count = 0) :
    repeated stop width element t = .ok () { t with cur := t.cur.advance } := by
  refine bind_then hw (bind_then (look_run _ t) ?_)
  rw [hrep]
  exact bind_then (look_run _ t) (if_then (beq_iff_eq.mpr hc) (upd_run _ t))

/-- A repetition does one element and counts it; EIP moves on where it was the last one (44_string_io.md R666). -/
theorem repeated_step {k : RepKind} (hw : width t = .ok w t) (hrep : t.cur.ctx.rep = some k) (hc : t.cur.count ≠ 0)
    (he : element w t = .ok () ⟨u, b, x⟩) :
    repeated stop width element t =
      .ok () ⟨if u.decCount.count == 0 || stop k u.decCount then u.decCount.advance else u.decCount, b, x⟩ := by
  refine bind_then hw (bind_then (look_run _ t) ?_)
  rw [hrep]
  refine bind_then (look_run _ t) <| if_else (mt beq_iff_eq.mp hc) <| bind_then he <| bind_then (upd_run _ _) <|
    bind_then (look_run _ _) ?_
  rw [ite_run]
  split <;> rfl

/-- An element that stops, stops the instruction. -/
theorem repeated_error {e : Stop} (hw : width t = .ok w t) (hc : t.cur.ctx.rep = none ∨ t.cur.count ≠ 0)
    (he : element w t = .error e t) : repeated stop width element t = .error e t := by
  refine bind_then hw (bind_then (look_run _ t) ?_)
  cases hrep : t.cur.ctx.rep with
  | none => exact bind_run_error he
  | some k =>
    have hne : t.cur.count ≠ 0 := hc.resolve_left (by simp [hrep])
    exact bind_then (look_run _ t) (if_else (mt beq_iff_eq.mp hne) (bind_run_error he))

end

/-- Settles O50: every form repeats its element, and the prefix and the count say how often. -/
theorem stringInstructions : Obligations.StringInstructions := by
  intro i op byte s hi hl w
  have hw : elementWidth byte (Tx.start s) = .ok w (Tx.start s) := elementWidth_run byte _
  rw [exec_stringForm hi]
  refine ⟨fun hrep he => ?_, fun k hrep => ⟨fun hc => ?_, fun hc he => ?_⟩⟩
  · obtain ⟨b, hb⟩ := op.body_run (t := Tx.start s) he
    exact instr_completes hl (repeated_once hw hrep hb)
  · exact instr_completes hl (repeated_zero hw hrep hc)
  · obtain ⟨b, hb⟩ := op.body_run (t := Tx.start s) he
    refine (instr_completes hl (repeated_step hw hrep hc hb)).trans ?_
    rw [op.stop_eq_ends]
    exact congrArg Host.Outcome.next (apply_ite (complete s) _ _ _)

/-! ## Ports that the map does not open -/

/-- INS and OUTS ask for the port before anything else. -/
theorem exec_portString_fault {i : Instr} {op : StringOp} {byte : Bool} {w : Nat}
    (hi : stringForm i = some (op, byte)) (hw : s.elementBits byte = w) (hop : op = .ins ∨ op = .outs)
    (hl : s.ctx.lock = false) (hf : s.portsFree = false) (hr : s.tssRam = true)
    (hm : s.mapAllows (s.gprLow 16 .edx) (w / 8) = false) (hc : s.ctx.rep = none ∨ s.count ≠ 0) :
    exec i s = s.trapped 13 (some 0) := by
  subst hw
  have hperm := ioPermission_fault (t := Tx.start s) rfl hf hr hm
  have he : op.body (s.elementBits byte) (Tx.start s) = .error (.raise { vec := 13, err := some 0 }) (Tx.start s) := by
    rcases hop with rfl | rfl <;> exact bind_then (look_run _ _) (bind_run_error hperm)
  rw [exec_stringForm hi]
  exact instr_trapped hl (repeated_error (elementWidth_run byte _) hc he)

/-- Settles O52: every form asks for its port first, and the map refuses it. -/
theorem ioMapRefuses : Obligations.IoMapRefuses := by
  intro s hl hf hr refuses dx
  refine ⟨fun ib hm => ⟨exec_in_fault hl hf hr rfl rfl hm, exec_out_fault hl hf hr rfl rfl hm⟩,
    fun ib hm => ⟨exec_in_fault hl hf hr rfl rfl hm, exec_out_fault hl hf hr rfl rfl hm⟩,
    fun hm => ⟨exec_in_fault hl hf hr rfl rfl hm, exec_out_fault hl hf hr rfl rfl hm, fun hc => ⟨?_, ?_⟩⟩,
    fun hm => ⟨exec_in_fault hl hf hr rfl rfl hm, exec_out_fault hl hf hr rfl rfl hm, fun hc => ⟨?_, ?_⟩⟩⟩
  · exact exec_portString_fault (i := .insb) (w := 8) rfl rfl (.inl rfl) hl hf hr hm hc
  · exact exec_portString_fault (i := .outsb) (w := 8) rfl rfl (.inr rfl) hl hf hr hm hc
  · exact exec_portString_fault (i := .insv) rfl rfl (.inl rfl) hl hf hr hm hc
  · exact exec_portString_fault (i := .outsv) rfl rfl (.inr rfl) hl hf hr hm hc

end Sys2Proof.Machine
end

section
/-! PROOFS. The flag instructions, the processor control of 45_flag_misc.md, and the obligations about them
(O53, O54, O55). -/

namespace Sys2Proof.Machine

variable {s : State} {t : Tx}

/-! ## The carry and direction flags -/

/-- A bit that is turned over is a bit added without carry. -/
theorem putBit_not_getLsbD {n : Nat} (v : BitVec n) (i : Nat) :
    putBit v i (!v.getLsbD i) = v ^^^ BitVec.twoPow n i := by
  refine BitVec.eq_of_getLsbD_eq fun j hj => ?_
  rw [getLsbD_putBit, BitVec.getLsbD_xor, BitVec.getLsbD_twoPow]
  by_cases hji : j = i
  · subst hji
    simp [hj]
  · simp [hji, Ne.symm hji]

/-- CMC turns CF over (45_flag_misc.md R722). -/
theorem complement_cf (s : State) : s.putFlag 0 (!s.cf) = { s with eflags := s.eflags ^^^ 1#32 } :=
  congrArg (fun v => { s with eflags := v }) (putBit_not_getLsbD s.eflags 0)

/-- Settles O53: each opcode is decoded, and each meaning writes the one bit of its flag. -/
theorem carryAndDirectionFlags : Obligations.CarryAndDirectionFlags := by
  refine ⟨fun c => ⟨?_, ?_, ?_, ?_, ?_⟩, fun s hl => ⟨?_, ?_, ?_, ?_, ?_⟩⟩
  · exact decodeOne_reads_encode (i := .clc) rfl []
  · exact decodeOne_reads_encode (i := .stc) rfl []
  · exact decodeOne_reads_encode (i := .cmc) rfl []
  · exact decodeOne_reads_encode (i := .cld) rfl []
  · exact decodeOne_reads_encode (i := .std) rfl []
  · exact seqInstr_next hl (upd_run (·.putFlag 0 false) _)
  · exact seqInstr_next hl (upd_run (·.putFlag 0 true) _)
  · rw [← complement_cf]
    exact seqInstr_next hl (upd_run (fun u => u.putFlag 0 !u.cf) _)
  · exact seqInstr_next hl (upd_run (·.putFlag 10 false) _)
  · exact seqInstr_next hl (upd_run (·.putFlag 10 true) _)

/-! ## The flags in AH -/

/-- The low byte of EFLAGS, its fixed bits as they must be (10_state.md R55, 45_flag_misc.md R732). -/
theorem lowFlags_bits (h : s.eflags &&& 0x2A = 2) :
    (List.range 8).map (s.eflags.setWidth 8).getLsbD = [s.cf, true, s.pf, false, s.af, false, s.zf, s.sf] := by
  have hbit (i : Nat) : (s.eflags.getLsbD i && (0x2A : Dword).getLsbD i) = (2 : Dword).getLsbD i := by
    rw [← BitVec.getLsbD_and, h]
  have h1 : s.eflags[1] = true := by simpa using hbit 1
  have h3 : s.eflags[3] = false := by simpa using hbit 3
  have h5 : s.eflags[5] = false := by simpa using hbit 5
  simp [List.range_succ, State.cf, State.pf, State.af, State.zf, State.sf, h1, h3, h5]

/-- The bits of a value into which those of another are taken over under a mask. -/
theorem getLsbD_masked {n j : Nat} (v x m : BitVec n) (hj : j < n) :
    ((v &&& ~~~m) ||| (x &&& m)).getLsbD j = if m.getLsbD j then x.getLsbD j else v.getLsbD j := by
  rw [BitVec.getLsbD_or, BitVec.getLsbD_and, BitVec.getLsbD_and, BitVec.getLsbD_not, decide_eq_true hj]
  cases m.getLsbD j <;> simp

/-- The five flags of the low byte, taken from the byte `h` while OF stays: the bits of the mask D5H are taken over. -/
theorem into_lowFlags (v : Dword) (h : Byte) :
    Flags.into { cf := h.getLsbD 0, pf := h.getLsbD 2, af := h.getLsbD 4, zf := h.getLsbD 6, sf := h.getLsbD 7,
                 of := v.getLsbD 11 } v =
      (v &&& ~~~0xD5#32) ||| (h.setWidth 32 &&& 0xD5#32) := by
  refine BitVec.eq_of_getLsbD_eq fun j hj => ?_
  have hmask : (0xD5#32).getLsbD j = decide (j ∈ [0, 2, 4, 6, 7]) := by
    revert j
    decide
  rw [getLsbD_masked _ _ _ hj, hmask]
  simp only [Flags.into, getLsbD_putBit]
  by_cases hmem : j ∈ [0, 2, 4, 6, 7]
  · have hcases : j = 0 ∨ j = 2 ∨ j = 4 ∨ j = 6 ∨ j = 7 := by simpa using hmem
    rcases hcases with rfl | rfl | rfl | rfl | rfl <;> simp
  · obtain ⟨h0, h2, h4, h6, h7⟩ : j ≠ 0 ∧ j ≠ 2 ∧ j ≠ 4 ∧ j ≠ 6 ∧ j ≠ 7 := by simpa using hmem
    by_cases h11 : j = 11
    · subst h11
      simp
    · simp [h0, h2, h4, h6, h7, h11]

/-- SAHF takes five flags from AH (45_flag_misc.md R733). -/
theorem sahfBody_run (t : Tx) :
    sahfBody t = .ok () { t with
      cur := { t.cur with
        eflags := (t.cur.eflags &&& ~~~0xD5#32) ||| ((t.cur.reg8 .ah).setWidth 32 &&& 0xD5#32) } } := by
  rw [← into_lowFlags]
  rfl

/-- Settles O54: each opcode is decoded; AH and the low byte of EFLAGS are copied bit by bit. -/
theorem flagsInAhAndNop : Obligations.FlagsInAhAndNop := by
  refine ⟨fun c => ⟨?_, ?_, ?_⟩, fun s hl => ⟨⟨?_, lowFlags_bits⟩, ?_, ?_⟩⟩
  · exact decodeOne_reads_encode (i := .lahf) rfl []
  · exact decodeOne_reads_encode (i := .sahf) rfl []
  · exact decodeOne_reads_encode (i := .nop) rfl []
  · exact seqInstr_next hl (upd_run (fun u => u.setReg8 .ah (u.eflags.setWidth 8)) _)
  · exact seqInstr_next hl (sahfBody_run _)
  · exact seqInstr_next hl (pure_run () _)

/-! ## Processor control -/

/-- CLI and STI may run (45_flag_misc.md R725). -/
theorem needIopl_run (h : t.cur.ioSensitive = true) : needIopl t = .ok () t := bind_then (look_run _ t) (need_run h)

/-- A privileged instruction may run (46_system.md R770). -/
theorem needPrivilege_run (h : t.cur.privileged = true) : needPrivilege t = .ok () t :=
  bind_then (look_run _ t) (need_run h)

/-- What ESC and WAIT have in common: exception 7 unless `ok` holds, then nothing, for want of a coprocessor
(45_flag_misc.md R752, log 9). -/
def coprocessorBody (ok : State → Bool) : M Unit := do
  need (← look ok) raiseNM
  if Config.coprocessor = .none then pure () else refuse .coprocessor

/-- The check of ESC (45_flag_misc.md R750). -/
theorem escBody_eq (op : BitVec 3) (e : RM Gpr) : escBody op e = coprocessorBody fun u => !u.em && !u.ts := rfl

/-- The check of WAIT (45_flag_misc.md R753). -/
theorem waitBody_eq : waitBody = coprocessorBody fun u => !(u.mp && u.ts) := rfl

/-- The check holds, and no coprocessor is attached. -/
theorem coprocessorBody_run {ok : State → Bool} (h : ok t.cur = true) : coprocessorBody ok t = .ok () t :=
  bind_then (look_run ok t) (bind_then (need_run h) (if_then rfl rfl))

/-- The check fails. -/
theorem coprocessorBody_fault {ok : State → Bool} (h : ok t.cur = false) :
    coprocessorBody ok t = .error (.raise { vec := 7, err := none }) t :=
  bind_then (look_run ok t) (need_stop h (raisePlain_run 7 t))

/-- WAIT runs the check of MP and TS. -/
theorem exec_wait (s : State) : exec .wait s = seqInstr false (coprocessorBody fun u => !(u.mp && u.ts)) s :=
  congrArg (seqInstr false · s) waitBody_eq

/-- The eight ESC opcodes have one meaning (45_flag_misc.md R750). -/
theorem exec_esc {i : Instr} {op : BitVec 3} {e : RM Gpr}
    (hi : i ∈ [Instr.esc0 op e, .esc1 op e, .esc2 op e, .esc3 op e, .esc4 op e, .esc5 op e, .esc6 op e, .esc7 op e])
    (s : State) : exec i s = seqInstr false (coprocessorBody fun u => !u.em && !u.ts) s := by
  rw [← escBody_eq op e]
  simp only [List.mem_cons, List.not_mem_nil, or_false] at hi
  rcases hi with rfl | rfl | rfl | rfl | rfl | rfl | rfl | rfl <;> rfl

/-- Settles O55: each meaning makes its check, and its effect is one write or none. -/
theorem processorControl : Obligations.ProcessorControl := by
  refine fun s hl => ⟨fun h => ⟨?_, ?_⟩, fun h => ?_, fun h => ?_, fun h => ?_,
    fun op e i hi => ⟨fun h => ?_, fun h => ?_⟩⟩
  · exact seqInstr_next hl (bind_then (needIopl_run h) (upd_run (·.putFlag 9 false) _))
  · exact seqInstr_next hl
      (bind_then (needIopl_run h) (upd_run (fun u => { u.putFlag 9 true with inhibitSTI := !u.if' }) _))
  · exact seqInstr_next hl (bind_then (needPrivilege_run h) (upd_run _ _))
  · rw [exec_wait]
    exact seqInstr_next hl (coprocessorBody_run (congrArg not h))
  · rw [exec_wait]
    exact seqInstr_trapped hl (coprocessorBody_fault (congrArg not h)) rfl
  · rw [exec_esc hi]
    exact seqInstr_next hl (coprocessorBody_run ((Bool.not_or ..).symm.trans (congrArg not h)))
  · rw [exec_esc hi]
    exact seqInstr_trapped hl (coprocessorBody_fault ((Bool.not_or ..).symm.trans (congrArg not h))) rfl

end Sys2Proof.Machine
end

section
/-! PROOFS. The checks that the system instructions make first, the moves from and to the special registers, and where
privileged instructions stop (O56). -/

namespace Sys2Proof.Machine

variable {s : State} {t : Tx}

/-! ## The checks made first -/

section

variable {α : Type} {f : Unit → M α} {r : EStateM.Result Stop Tx α}

/-- An instruction that is undefined in real-address mode goes on in protected mode (46_system.md R771). -/
theorem needProtected_then (h : t.cur.pe = true) (hf : f () t = r) : (needProtected >>= f) t = r :=
  bind_then (bind_then (look_run _ t) (need_run h)) hf

/-- In real-address mode it is an invalid opcode. -/
theorem needProtected_stop (h : t.cur.pe = false) :
    (needProtected >>= f) t = .error (.raise { vec := 6, err := none }) t :=
  bind_run_error (bind_then (look_run _ t) ((need_fail h).trans (raisePlain_run 6 t)))

/-- A privileged instruction that may run goes on (46_system.md R770). -/
theorem needPrivilege_then (h : t.cur.privileged = true) (hf : f () t = r) : (needPrivilege >>= f) t = r :=
  bind_then (needPrivilege_run h) hf

/-- A privileged instruction that may not run stops. -/
theorem needPrivilege_stop (hx : t.ext = false) (h : t.cur.privileged = false) :
    (needPrivilege >>= f) t = .error (.raise { vec := 13, err := some 0 }) t :=
  bind_run_error (bind_then (look_run _ t) ((need_fail h).trans (raiseGP0_run hx)))

/-- CLI and STI stop where CPL exceeds IOPL (45_flag_misc.md R725, R726). -/
theorem needIopl_stop (hx : t.ext = false) (h : t.cur.ioSensitive = false) :
    (needIopl >>= f) t = .error (.raise { vec := 13, err := some 0 }) t :=
  bind_run_error (bind_then (look_run _ t) ((need_fail h).trans (raiseGP0_run hx)))

end

/-- No privileged instruction may run in protected mode at an outer level. -/
theorem privileged_eq_false (hpe : s.pe = true) (hc : s.cpl ≠ 0) : s.privileged = false := by
  simpa [State.privileged, hpe] using hc

/-- In protected mode with CPL above IOPL, CLI and STI may not run. -/
theorem ioSensitive_eq_false (hpe : s.pe = true) (hc : s.iopl.toNat < s.cpl.toNat) : s.ioSensitive = false := by
  simp [State.ioSensitive, hpe, hc]

/-! ## Moves from and to the special registers -/

/-- The state after the six status flags are left open (46_system.md R800, R805, R810). -/
def State.flagsOpen (s : State) : State := (s.drawn 1).setFlags (Flags.free (s.any 0))

theorem anyFlags_run (t : Tx) :
    anyFlags t = .ok () { t with cur := t.cur.flagsOpen, base := t.base.drawn 1 } :=
  bind_then (anyD_run t) (upd_run _ _)

/-- What MOV from a control, debug or test register does. -/
def fromSpecial (read : M Dword) (r : Gpr) : M Unit := do
  let v ← read
  upd (·.setGpr r v)
  anyFlags

/-- What MOV to a control, debug or test register does. -/
def toSpecial (write : Dword → M Unit) (r : Gpr) : M Unit := do
  write (← look (·.gpr r))
  anyFlags

theorem exec_movRdCd (r : Gpr) (n : BitVec 3) (s : State) :
    exec (.movRdCd r n) s = seqInstr false (fromSpecial (readCr n) r) s := rfl
theorem exec_movRdDd (r : Gpr) (n : BitVec 3) (s : State) :
    exec (.movRdDd r n) s = seqInstr false (fromSpecial (readDr n) r) s := rfl
theorem exec_movRdTd (r : Gpr) (n : BitVec 3) (s : State) :
    exec (.movRdTd r n) s = seqInstr false (fromSpecial (readTr n) r) s := rfl
theorem exec_movCdRd (n : BitVec 3) (r : Gpr) (s : State) :
    exec (.movCdRd n r) s = seqInstr false (toSpecial (writeCr n) r) s := rfl
theorem exec_movDdRd (n : BitVec 3) (r : Gpr) (s : State) :
    exec (.movDdRd n r) s = seqInstr false (toSpecial (writeDr n) r) s := rfl
theorem exec_movTdRd (n : BitVec 3) (r : Gpr) (s : State) :
    exec (.movTdRd n r) s = seqInstr false (toSpecial (writeTr n) r) s := rfl

section

variable {read : M Dword} {write : Dword → M Unit} {r : Gpr} {vec : Byte} {err : Option Word}

/-- A move to a register whose writing raises an exception. -/
theorem toSpecial_trapped (hl : s.ctx.lock = false)
    (h : write (s.gpr r) (Tx.start s) = .error (.raise { vec := vec, err := err }) (Tx.start s)) :
    seqInstr false (toSpecial write r) s = s.trapped vec err :=
  seqInstr_trapped hl (bind_then (look_run _ _) (bind_run_error h)) rfl

/-- A register whose reading and writing raise an exception: so do the moves from and to it. -/
theorem special_trapped (hl : s.ctx.lock = false)
    (h : read (Tx.start s) = .error (.raise { vec := vec, err := err }) (Tx.start s) ∧
      ∀ v, write v (Tx.start s) = .error (.raise { vec := vec, err := err }) (Tx.start s)) :
    seqInstr false (fromSpecial read r) s = s.trapped vec err ∧
      seqInstr false (toSpecial write r) s = s.trapped vec err := by
  obtain ⟨hread, hwrite⟩ := h
  exact ⟨seqInstr_trapped hl (bind_run_error hread) rfl, toSpecial_trapped hl (hwrite _)⟩

end

/-! ## At an outer level -/

section

variable {n : BitVec 3} (hx : t.ext = false) (hp : t.cur.privileged = false)
include hx hp

/-- The control registers there are may not be read or written at an outer level (46_system.md R800). -/
theorem cr_unprivileged (hn : n ∈ [0#3, 2#3, 3#3]) :
    readCr n t = .error (.raise { vec := 13, err := some 0 }) t ∧
      ∀ v, writeCr n v t = .error (.raise { vec := 13, err := some 0 }) t := by
  simp only [List.mem_cons, List.not_mem_nil, or_false] at hn
  rcases hn with rfl | rfl | rfl <;> exact ⟨needPrivilege_stop hx hp, fun _ => needPrivilege_stop hx hp⟩

/-- Nor may the debug registers (46_system.md R805). -/
theorem dr_unprivileged (hn : n ∈ [0#3, 1#3, 2#3, 3#3, 6#3, 7#3]) :
    readDr n t = .error (.raise { vec := 13, err := some 0 }) t ∧
      ∀ v, writeDr n v t = .error (.raise { vec := 13, err := some 0 }) t := by
  simp only [List.mem_cons, List.not_mem_nil, or_false] at hn
  rcases hn with rfl | rfl | rfl | rfl | rfl | rfl <;>
    exact ⟨needPrivilege_stop hx hp, fun _ => needPrivilege_stop hx hp⟩

/-- Nor the test registers (46_system.md R810). -/
theorem tr_unprivileged (hn : n ∈ [6#3, 7#3]) :
    readTr n t = .error (.raise { vec := 13, err := some 0 }) t ∧
      ∀ v, writeTr n v t = .error (.raise { vec := 13, err := some 0 }) t := by
  simp only [List.mem_cons, List.not_mem_nil, or_false] at hn
  rcases hn with rfl | rfl <;> exact ⟨needPrivilege_stop hx hp, fun _ => needPrivilege_stop hx hp⟩

end

/-- Settles O56: the check of the level comes before anything the instruction reads or changes. -/
theorem privilegeFaults : Obligations.PrivilegeFaults := by
  refine fun s hl hpe => ⟨fun hc => ?_, fun hc => ?_⟩
  · have hp := privileged_eq_false hpe hc
    simp only [exec_movRdCd, exec_movRdDd, exec_movRdTd, exec_movCdRd, exec_movDdRd, exec_movTdRd]
    refine ⟨?_, ?_, fun m => ⟨?_, ?_⟩, fun e => ⟨?_, ?_, ?_⟩, fun r n hn => ?_, fun r n hn => ?_, fun r n hn => ?_⟩
    · exact seqInstr_trapped hl (needPrivilege_stop rfl hp) rfl
    · exact seqInstr_trapped hl (needPrivilege_stop rfl hp) rfl
    · exact seqInstr_trapped hl (bind_run_error (needPrivilege_stop rfl hp)) rfl
    · exact seqInstr_trapped hl (bind_run_error (needPrivilege_stop rfl hp)) rfl
    · exact seqInstr_trapped hl (needProtected_then hpe (needPrivilege_stop rfl hp)) rfl
    · exact seqInstr_trapped hl (needProtected_then hpe (needPrivilege_stop rfl hp)) rfl
    · exact seqInstr_trapped hl (needPrivilege_stop rfl hp) rfl
    · exact (special_trapped hl (cr_unprivileged rfl hp hn)).symm
    · exact (special_trapped hl (dr_unprivileged rfl hp hn)).symm
    · exact (special_trapped hl (tr_unprivileged rfl hp hn)).symm
  · have hp := ioSensitive_eq_false hpe hc
    exact ⟨seqInstr_trapped hl (needIopl_stop rfl hp) rfl, seqInstr_trapped hl (needIopl_stop rfl hp) rfl⟩

end Sys2Proof.Machine
end

section
/-! PROOFS. The descriptor-table registers, the machine status word and CLTS (O57). -/

namespace Sys2Proof.Machine

variable {s : State}

/-- The three bits of LMSW above PE, and PE as it is or set, are the low four bits of the operand over a CR0 that keeps PE
(46_system.md R780). -/
theorem putField_msw (c : Dword) (v : Word) :
    putField c 0 (v.extractLsb' 1 3 ++ BitVec.ofBool (c.getLsbD 0 || v.getLsbD 0)) =
      (c &&& 0xFFFFFFF1) ||| (v.setWidth 32 &&& 0xF) := by
  refine BitVec.eq_of_getLsbD_eq fun j hj => ?_
  rw [getLsbD_putField c 0 j _ hj, BitVec.getLsbD_or, BitVec.getLsbD_and, BitVec.getLsbD_and]
  by_cases h4 : j < 4
  · rw [if_pos (by omega), BitVec.getLsbD_append]
    interval_cases j <;> simp
  · have hmask : (0xFFFFFFF1 : Dword).getLsbD j = true ∧ (0xF : Dword).getLsbD j = false := by
      revert h4
      revert j
      decide
    rw [if_neg (by omega), hmask.1, hmask.2, Bool.and_true, Bool.and_false, Bool.or_false]

/-- LMSW (46_system.md R780). -/
theorem lmswBody_run {e : RM Gpr} (hp : s.privileged = true) (h : s.okV 16 e false = true) :
    lmswBody e (Tx.start s) = .ok ()
      { Tx.start s with
        cur := { s with cr0 := (s.cr0 &&& 0xFFFFFFF1) ||| ((s.getV 16 e).setWidth 32 &&& 0xF) } } := by
  rw [← putField_msw]
  exact needPrivilege_then hp (bind_then (readV_run 16 e (Tx.start s) h) rfl)

/-- The low half of CR0 as it is read: its bits 15:5 are open (46_system.md R781). -/
theorem msw_eq (c x : Dword) :
    ((c &&& 0x8000001F) ||| (x &&& 0x7FFFFFE0)).setWidth 16 = ((c &&& 0x1F) ||| (x &&& 0xFFE0)).setWidth 16 := by
  refine BitVec.eq_of_getLsbD_eq fun j hj => ?_
  have hmask : (0x8000001F : Dword).getLsbD j = (0x1F : Dword).getLsbD j ∧
      (0x7FFFFFE0 : Dword).getLsbD j = (0xFFE0 : Dword).getLsbD j := by
    revert j
    decide
  simp only [BitVec.getLsbD_setWidth, BitVec.getLsbD_or, BitVec.getLsbD_and, hmask]

/-- SMSW reads the low half of CR0, one free value drawn. -/
theorem readMsw_run (s : State) :
    readMsw (Tx.start s) =
      .ok (((s.cr0 &&& 0x1F) ||| (s.any 0 &&& 0xFFE0)).setWidth 16) (Tx.start (s.drawn 1)) := by
  rw [← msw_eq]
  rfl

/-- A draw leaves what an operand can be reached by. -/
theorem drawn_okV (s : State) (k w : Nat) (e : RM Gpr) (wr : Bool) : (s.drawn k).okV w e wr = s.okV w e wr := by
  cases e <;> rfl

/-- Settles O57: the operand is read or written through its parts, the register is one field. -/
theorem tableRegistersAndMsw : Obligations.TableRegistersAndMsw := by
  refine fun s hl => ⟨fun m hp h => ?_, fun m h => ⟨?_, ?_⟩, fun e hp h => ?_, fun e h => ?_, fun hp => ?_⟩
  · have ht := loadTable_run m (Tx.start s) (needPrivilege_run hp) h
    exact ⟨seqInstr_next hl (bind_then ht (upd_run _ _)), seqInstr_next hl (bind_then ht (upd_run _ _))⟩
  · exact seqInstr_next hl (bind_then (look_run _ _) (storeTable_run m s.gdtr (Tx.start s) h))
  · exact seqInstr_next hl (bind_then (look_run _ _) (storeTable_run m s.idtr (Tx.start s) h))
  · exact seqInstr_next hl (lmswBody_run hp h)
  · obtain ⟨b, hb⟩ := storeWord_run e (((s.cr0 &&& 0x1F) ||| (s.any 0 &&& 0xFFE0)).setWidth 16)
      ((drawn_okV s 1 16 e true).trans h)
    exact seqInstr_next hl (bind_then (readMsw_run s) hb)
  · exact seqInstr_next hl (needPrivilege_then hp (upd_run (fun u => { u with cr0 := putBit u.cr0 3 false }) _))

end Sys2Proof.Machine
end

section
/-! PROOFS. LLDT and LTR where they load their register and where they stop, SLDT and STR (O58). -/

namespace Sys2Proof.Machine

variable {s : State} {e : RM Gpr} {sel : Word} {d : Desc} {t : Tx} {x : Byte × Word}

/-- What LLDT does with its selector (46_system.md R776). -/
def loadLdtr (sel : Word) : M Unit := do
  if isNull sel then upd fun s => { s with ldtr := { s.ldtr with sel := sel, valid := false } }
  else
    need (!ti sel) (raiseGP sel)
    let d ← fetchDescOr sel (raiseGP sel)
    need (!d.s && d.typ == 2) (raiseGP sel)
    need d.p (raiseNP sel)
    upd fun s => { s with ldtr := d.toSys sel }

/-- What LTR does with its selector (47_multitasking.md R860). -/
def loadTr (sel : Word) : M Unit := do
  need (!isNull sel) raiseGP0
  need (!ti sel) (raiseGP sel)
  let d ← fetchDescOr sel (raiseGP sel)
  need (!(!d.s && d.typ == 1)) (refuse .descriptor286)
  need (!d.s && d.typ == 9) (raiseGP sel)
  need d.p (raiseNP sel)
  changeAccess (← linPlan (d.addr + 5) 1 true false) (· ||| 2)
  upd fun s => { s with tr := d.toSys sel }

/-- LLDT at level 0 reads its selector and loads LDTR with it. -/
theorem lldtBody_run (hpe : s.pe = true) (hp : s.privileged = true) (h : s.okV 16 e false = true) :
    lldtBody e (Tx.start s) = loadLdtr (s.getV 16 e) (Tx.start s) :=
  needProtected_then hpe (needPrivilege_then hp (bind_then (readV_run 16 e _ h) rfl))

/-- LTR at level 0 reads its selector and loads TR with it. -/
theorem ltrBody_run (hpe : s.pe = true) (hp : s.privileged = true) (h : s.okV 16 e false = true) :
    ltrBody e (Tx.start s) = loadTr (s.getV 16 e) (Tx.start s) :=
  needProtected_then hpe (needPrivilege_then hp (bind_then (readV_run 16 e _ h) rfl))

/-! ## LDTR -/

/-- What `isLdt` says. -/
theorem isLdt_iff : d.isLdt = true ↔ (!d.s && d.typ == 2) = true ∧ d.p = true := Bool.and_eq_true_iff

/-- An LDT descriptor is loaded. -/
theorem loadLdtr_run (hn : isNull sel = false) (hti : ti sel = false) (hd : t.cur.descFor sel = some d)
    (hldt : d.isLdt = true) : loadLdtr sel t = .ok () { t with cur := { t.cur with ldtr := d.toSys sel } } := by
  obtain ⟨htyp, hp⟩ := isLdt_iff.mp hldt
  exact if_else (ne_true_of_eq_false hn) <| bind_then (need_run (congrArg not hti)) <|
    bind_then (fetchDescOr_run hd) <| bind_then (need_run htyp) <| bind_then (need_run hp) (upd_run _ t)

/-- A selector that LLDT refuses. -/
theorem loadLdtr_fault (hx : t.ext = false) (hr : isNull sel = true ∨ ti sel = true ∨ t.cur.tableRam sel = true)
    (hf : t.cur.lldtFault sel = some x) :
    loadLdtr sel t = .error (.raise { vec := x.1, err := some x.2 }) t := by
  have hn : ¬isNull sel = true := fun hn => by simp [State.lldtFault, hn] at hf
  refine if_else hn <| need_or_later (fun h => raiseSel_fault hx hf ?_) fun hti => ?_
  case refine_1 => simp_all [State.lldtFault]
  rw [Bool.not_eq_true'] at hti
  have hram : t.cur.tableRam sel = true := by simpa [hn, hti] using hr
  cases hd : t.cur.descFor sel with
  | none =>
    refine bind_run_error ((fetchDescOr_none hram hd).trans (raiseSel_fault hx hf ?_))
    simp [State.lldtFault, hn, hti, hd]
  | some d =>
    refine bind_then (fetchDescOr_run hd) <| need_or_later (fun h => raiseSel_fault hx hf ?_) fun htyp =>
      need_or_later (fun h => raiseSel_fault hx hf ?_) fun hp => absurd hf ?_
    all_goals cases hs : d.s <;> simp_all [State.lldtFault]

/-! ## TR -/

/-- One byte is a stretch of addresses. -/
theorem addrsFrom_one (la : Dword) : addrsFrom la 1 = [la] := by simp [addrsFrom]

/-- One byte of RAM. -/
theorem ramAt_one {la : Dword} (h : s.kindAt la.toNat = .ram) : s.ramAt la 1 = true := by
  simp [State.ramAt, addrsFrom_one, h]

/-- A byte changed is a byte stored. -/
theorem changeAt_eq_storeByte (s : State) (la : Dword) (f : Byte → Byte) :
    s.changeAt la f = s.storeByte la (f (s.byteAt la)) := by
  simp [State.changeAt, State.putAt, State.storeBytes, leBytes, addrsFrom_one]

/-- A free TSS is loaded and marked busy. -/
theorem loadTr_run (hn : isNull sel = false) (hti : ti sel = false) (hd : t.cur.descFor sel = some d)
    (htss : d.isFreeTss = true) :
    loadTr sel t = .ok () { t with
      cur := { t.cur.storeByte (d.addr + 5) (t.cur.byteAt (d.addr + 5) ||| 2) with tr := d.toSys sel } } := by
  obtain ⟨hs, htyp, hp⟩ := isFreeTss_iff.mp htss
  obtain ⟨hpg, hk⟩ := descFor_ram hd
  rw [← changeAt_eq_storeByte t.cur (d.addr + 5) (· ||| 2)]
  exact bind_then (need_run (congrArg not hn)) <| bind_then (need_run (congrArg not hti)) <|
    bind_then (fetchDescOr_run hd) <| bind_then (need_run (by rw [hs, htyp]; rfl)) <|
    bind_then (need_run (by rw [hs, htyp]; rfl)) <| bind_then (need_run hp) <|
    bind_then (linPlan_run _ 1 true false t hpg) <| bind_then (changeAccess_run (ramAt_one hk)) (upd_run _ _)

/-- An 80286 TSS is outside the model (20_memory.md R165). -/
theorem loadTr_286 (hn : isNull sel = false) (hti : ti sel = false) (hd : t.cur.descFor sel = some d)
    (hs : d.s = false) (htyp : d.typ = 1) : loadTr sel t = .error (.refuse .descriptor286) t :=
  bind_then (need_run (congrArg not hn)) <| bind_then (need_run (congrArg not hti)) <|
    bind_then (fetchDescOr_run hd) (need_stop (by rw [hs, htyp]; rfl) (refuse_run _ t))

/-- A selector that LTR refuses. -/
theorem loadTr_fault (hx : t.ext = false) (hr : isNull sel = true ∨ ti sel = true ∨ t.cur.tableRam sel = true)
    (hf : t.cur.ltrFault sel = some x) :
    loadTr sel t = .error (.raise { vec := x.1, err := some x.2 }) t := by
  refine need_or_later (fun h => raised_fault (raiseGP0_run hx) hf ?_) fun hn =>
    need_or_later (fun h => raiseSel_fault hx hf ?_) fun hti => ?_
  case refine_1 => simp_all [State.ltrFault]
  case refine_2 => simp_all [State.ltrFault]
  rw [Bool.not_eq_true'] at hn hti
  have hram : t.cur.tableRam sel = true := by simpa [hn, hti] using hr
  cases hd : t.cur.descFor sel with
  | none =>
    refine bind_run_error ((fetchDescOr_none hram hd).trans (raiseSel_fault hx hf ?_))
    simp [State.ltrFault, hn, hti, hd]
  | some d =>
    have h286 : (!(!d.s && d.typ == 1)) = true := by
      by_contra hc
      simp_all [State.ltrFault]
    refine bind_then (fetchDescOr_run hd) <| bind_then (need_run h286) <|
      need_or_later (fun h => raiseSel_fault hx hf ?_) fun htyp =>
      need_or_later (fun h => raiseSel_fault hx hf ?_) fun hp => absurd hf ?_
    all_goals cases hs : d.s <;> simp_all [State.ltrFault]

/-! ## The obligation -/

/-- At level 0 a privileged instruction may run. -/
theorem privileged_of_cpl_zero (hc : s.cpl = 0) : s.privileged = true := by
  simp [State.privileged, hc]

/-- Settles O58: the selector decides, check by check; a register is loaded from its descriptor. -/
theorem systemSegmentRegisters : Obligations.SystemSegmentRegisters := by
  refine fun s e hl => ⟨fun hpe => ⟨?_, ?_, ?_, ?_⟩, fun hpe h => ⟨?_, ?_⟩, fun hpe hc h => ?_⟩
  · exact seqInstr_trapped hl (needProtected_stop hpe) rfl
  · exact seqInstr_trapped hl (needProtected_stop hpe) rfl
  · exact seqInstr_trapped hl (needProtected_stop hpe) rfl
  · exact seqInstr_trapped hl (needProtected_stop hpe) rfl
  · obtain ⟨b, hb⟩ := storeWord_run e s.ldtr.sel h
    exact seqInstr_next hl (needProtected_then hpe (bind_then (look_run _ _) hb))
  · obtain ⟨b, hb⟩ := storeWord_run e s.tr.sel h
    exact seqInstr_next hl (needProtected_then hpe (bind_then (look_run _ _) hb))
  · have hp := privileged_of_cpl_zero hc
    have hlldt := lldtBody_run hpe hp h
    have hltr := ltrBody_run hpe hp h
    refine ⟨fun hn => ?_, fun hr vec code => ⟨fun hf => ?_, fun hf => ?_⟩,
      fun d hn hti hd => ⟨fun hldt => ?_, fun htss => ?_, fun hs htyp => ?_⟩⟩
    · exact seqInstr_next hl (hlldt.trans (if_then hn (upd_run _ _)))
    · exact seqInstr_trapped hl (hlldt.trans (loadLdtr_fault (t := Tx.start s) rfl hr hf)) rfl
    · exact seqInstr_trapped hl (hltr.trans (loadTr_fault (t := Tx.start s) rfl hr hf)) rfl
    · exact seqInstr_next hl (hlldt.trans (loadLdtr_run hn hti hd hldt))
    · exact seqInstr_next hl (hltr.trans (loadTr_run hn hti hd htss))
    · exact instr_refused hl (bind_run_error (hltr.trans (loadTr_286 hn hti hd hs htyp)))

end Sys2Proof.Machine
end

section
/-! PROOFS. ARPL, LAR, LSL, VERR and VERW, and what the bits of a descriptor say to them (O60). -/

namespace Sys2Proof.Machine

variable {s : State} {e : RM Gpr} {g : Gpr} {sel : Word} {d : Desc} {t : Tx}

/-! ## The descriptor looked at -/

/-- `Probe` finds the descriptor of a selector, or none (46_system.md R814). -/
theorem probe_run {o : Option Desc} (hr : t.cur.tableRam sel = true) (ho : t.cur.probed sel = o) :
    probe sel t = .ok o t := by
  subst ho
  unfold probe State.probed
  cases isNull sel with
  | true => rfl
  | false =>
    cases hd : t.cur.descFor sel with
    | none => exact fetchDesc_none hr hd
    | some d => exact fetchDesc_run hd

theorem setZf_run (b : Bool) (t : Tx) : setZf b t = .ok () { t with cur := t.cur.putFlag 6 b } := rfl

/-- VERR and VERW answer whether the descriptor looked at is there and passes the check. -/
theorem verifyBody_run (ok : State → Desc → Word → Bool) (hpe : s.pe = true) (h : s.okV 16 e false = true)
    (hr : s.tableRam (s.getV 16 e) = true) :
    verifyBody ok e (Tx.start s) = .ok ()
      { Tx.start s with
        cur := s.putFlag 6 ((s.probed (s.getV 16 e)).any fun d => ok s d (s.getV 16 e)) } := by
  refine needProtected_then hpe (bind_then (readV_run 16 e _ h) ?_)
  cases hp : s.probed (s.getV 16 e) with
  | none => exact bind_then (probe_run hr hp) (setZf_run _ _)
  | some d => exact bind_then (probe_run hr hp) (bind_then (look_run _ _) (setZf_run _ _))

/-! ## LAR and LSL -/

/-- What LAR and LSL have in common: `accepts` says which descriptors, `answer` what follows for one that the
levels let through (46_system.md R816, R817). -/
def probeBody (accepts : Desc → Bool) (answer : Desc → M Unit) (e : RM Gpr) : M Unit := do
  needProtected
  let sel ← readV 16 e
  match ← probe sel with
  | none => setZf false
  | some d =>
    if accepts d && (← look (·.reaches d sel)) then answer d else setZf false

/-- What LAR writes: the access rights; bits 19:16 of a 32-bit result are open (46_system.md R816). -/
def larAnswer (g : Gpr) (d : Desc) : M Unit := do
  let hi : Dword := d.raw.extractLsb' 32 32
  if ← look (·.o32) then
    let x ← anyD
    upd (·.setGpr g ((hi &&& 0x00F0FF00) ||| (x &&& 0x000F0000)))
  else upd (·.setGprLow g ((hi.setWidth 16 : Word) &&& 0xFF00))
  setZf true

/-- What LSL writes: the limit (46_system.md R817). -/
def lslAnswer (g : Gpr) (d : Desc) : M Unit := do
  withOsz fun w => upd (·.setGprLow g (d.limit32.setWidth w))
  setZf true

section

variable {accepts : Desc → Bool} {answer : Desc → M Unit}

/-- No descriptor, or one that is not accepted or not admitted: ZF is cleared. -/
theorem probeBody_denied (hpe : s.pe = true) (h : s.okV 16 e false = true) (hr : s.tableRam (s.getV 16 e) = true)
    (hd : (s.probed (s.getV 16 e)).any (fun d => accepts d && s.reaches d (s.getV 16 e)) = false) :
    probeBody accepts answer e (Tx.start s) = .ok () { Tx.start s with cur := s.putFlag 6 false } := by
  refine needProtected_then hpe (bind_then (readV_run 16 e _ h) ?_)
  cases hp : s.probed (s.getV 16 e) with
  | none => exact bind_then (probe_run hr hp) (setZf_run _ _)
  | some d =>
    rw [hp] at hd
    exact bind_then (probe_run hr hp) <|
      bind_then (look_run _ _) (if_else (ne_true_of_eq_false hd) (setZf_run _ _))

/-- A descriptor that is accepted and admitted is answered. -/
theorem probeBody_admitted {r : EStateM.Result Stop Tx Unit} (hpe : s.pe = true) (h : s.okV 16 e false = true)
    (hr : s.tableRam (s.getV 16 e) = true) (hd : s.probed (s.getV 16 e) = some d) (hacc : accepts d = true)
    (hre : s.reaches d (s.getV 16 e) = true) (ha : answer d (Tx.start s) = r) :
    probeBody accepts answer e (Tx.start s) = r :=
  needProtected_then hpe <| bind_then (readV_run 16 e _ h) <| bind_then (probe_run hr hd) <|
    bind_then (look_run _ _) (if_then (Bool.and_eq_true_iff.mpr ⟨hacc, hre⟩) ha)

end

theorem larBody_eq (g : Gpr) (e : RM Gpr) : larBody g e = probeBody Desc.larType (larAnswer g) e := rfl

theorem lslBody_eq (g : Gpr) (e : RM Gpr) : lslBody g e = probeBody Desc.lslType (lslAnswer g) e := rfl

theorem larAnswer_run (g : Gpr) (d : Desc) (s : State) :
    ∃ b, larAnswer g d (Tx.start s) = .ok ()
      ⟨(if s.o32 then
          (s.drawn 1).setGpr g ((d.raw.extractLsb' 32 32 &&& 0x00F0FF00) ||| (s.any 0 &&& 0x000F0000))
        else s.setGprLow g (((d.raw.extractLsb' 32 32 : Dword).setWidth 16 : Word) &&& 0xFF00)).putFlag 6 true,
        b, false⟩ := by
  cases ho : s.o32 with
  | true =>
    exact ⟨s.drawn 1, bind_then (look_run _ _) <| if_then ho <| bind_then (anyD_run _) <|
      bind_then (upd_run _ _) (setZf_run _ _)⟩
  | false =>
    exact ⟨s, bind_then (look_run _ _) <| if_else (ne_true_of_eq_false ho) <|
      bind_then (upd_run _ _) (setZf_run _ _)⟩

theorem lslAnswer_run (g : Gpr) (d : Desc) (s : State) :
    lslAnswer g d (Tx.start s) =
      .ok () ⟨(s.setGprLow g (d.limit32.setWidth s.osz)).putFlag 6 true, s, false⟩ :=
  bind_then (withOsz_run _ _) (setZf_run _ _)

/-! ## ARPL -/

/-- ARPL (46_system.md R815). -/
theorem arplBody_run (hpe : s.pe = true) (h : s.okV 16 e true = true) :
    arplBody e g (Tx.start s) = .ok ()
      { Tx.start s with
        cur := if (rpl (s.getV 16 e)).toNat < (rpl (s.gprLow 16 g)).toNat then
            (s.putV e (withRpl (s.getV 16 e) (rpl (s.gprLow 16 g)))).putFlag 6 true
          else s.putFlag 6 false } := by
  refine needProtected_then hpe <| bind_then (placeV_run 16 e true (Tx.start s) h) <|
    bind_then (placeW_read 16 e true (Tx.start s) h) <| bind_then (look_run _ _) ?_
  by_cases hlt : (rpl (s.getV 16 e)).toNat < (rpl (s.gprLow 16 g)).toNat
  · rw [if_pos hlt]
    exact if_then hlt (bind_then (placeW_put s 0 16 e _ h) (setZf_run _ _))
  · rw [if_neg hlt]
    exact if_else hlt (setZf_run _ _)

/-! ## The bits of a descriptor -/

/-- What `mayUse` says of the bits: the DPL admits CPL and RPL. -/
theorem mayUse_iff (s : State) (d : Desc) (sel : Word) :
    s.mayUse d sel = true ↔
      s.cpl.toNat ≤ (d.raw.extractLsb' 45 2).toNat ∧ (sel.extractLsb' 0 2).toNat ≤ (d.raw.extractLsb' 45 2).toNat :=
  decide_eq_true_iff

/-- One bit of TYPE is one bit of the descriptor. -/
theorem typ_getLsbD (d : Desc) {i : Nat} (h : i < 4) : d.typ.getLsbD i = d.raw.getLsbD (40 + i) := by
  simp [Desc.typ, h]

/-- What `reaches` says of the bits: conforming code, or a DPL that admits CPL and RPL. -/
theorem reaches_iff (s : State) (d : Desc) (sel : Word) :
    s.reaches d sel = true ↔
      (d.raw.getLsbD 44 = true ∧ d.raw.getLsbD 43 = true ∧ d.raw.getLsbD 42 = true) ∨ s.mayUse d sel = true := by
  simp only [State.reaches, Desc.isCode, Desc.conforming, Desc.s, typ_getLsbD d (show 2 < 4 by decide),
    typ_getLsbD d (show 3 < 4 by decide), Bool.or_eq_true, Bool.and_eq_true, and_assoc]

/-- What `readable` says of the bits: a segment, and if it is code, one that can be read. -/
theorem readable_iff (d : Desc) :
    d.readable = true ↔ d.raw.getLsbD 44 = true ∧ (d.raw.getLsbD 43 = true → d.raw.getLsbD 41 = true) := by
  simp only [Desc.readable, Desc.s, typ_getLsbD d (show 1 < 4 by decide), typ_getLsbD d (show 3 < 4 by decide),
    Bool.and_eq_true, Bool.not_and, Bool.not_not, Bool.or_eq_true, Bool.not_eq_true', imp_iff_not_or, Bool.not_eq_true]

/-- What `writableData` says of the bits: a segment, not code, that can be written. -/
theorem writableData_iff (d : Desc) :
    d.writableData = true ↔ d.raw.getLsbD 44 = true ∧ d.raw.getLsbD 43 = false ∧ d.raw.getLsbD 41 = true := by
  simp only [Desc.writableData, Desc.s, typ_getLsbD d (show 1 < 4 by decide), typ_getLsbD d (show 3 < 4 by decide),
    Bool.and_eq_true, Bool.not_eq_true', and_assoc]

/-- The types a list accepts, besides all segments. -/
theorem segment_or_contains_iff (d : Desc) (types : List Nat) :
    (d.s || types.contains d.typ.toNat) = true ↔
      d.raw.getLsbD 44 = true ∨ (d.raw.extractLsb' 40 4).toNat ∈ types := by
  rw [Bool.or_eq_true, List.contains_iff_mem]
  rfl

/-- Settles O60: each instruction reads its selector and looks at the descriptor; the acceptance is a matter of bits. -/
theorem protectionProbes : Obligations.ProtectionProbes := by
  refine fun s e g hl => ⟨fun hpe => ⟨?_, ?_, ?_, ?_, ?_⟩, fun hpe h => ?_, fun hpe h hr => ?_, fun d sel => ?_⟩
  · exact seqInstr_trapped hl (needProtected_stop hpe) rfl
  · exact seqInstr_trapped hl (needProtected_stop hpe) rfl
  · exact seqInstr_trapped hl (needProtected_stop hpe) rfl
  · exact seqInstr_trapped hl (needProtected_stop hpe) rfl
  · exact seqInstr_trapped hl (needProtected_stop hpe) rfl
  · exact seqInstr_next hl (arplBody_run hpe h)
  · refine ⟨?_, ?_, fun hno => ?_, fun hno => ?_, fun d hd => ⟨fun hacc hre => ?_, fun hacc hre => ?_⟩⟩
    · exact seqInstr_next hl (verifyBody_run readOk hpe h hr)
    · exact seqInstr_next hl (verifyBody_run writeOk hpe h hr)
    · exact seqInstr_next hl ((congrFun (larBody_eq g e) _).trans (probeBody_denied hpe h hr hno))
    · exact seqInstr_next hl ((congrFun (lslBody_eq g e) _).trans (probeBody_denied hpe h hr hno))
    · obtain ⟨b, hb⟩ := larAnswer_run g d s
      exact seqInstr_next hl ((congrFun (larBody_eq g e) _).trans (probeBody_admitted hpe h hr hd hacc hre hb))
    · exact seqInstr_next hl ((congrFun (lslBody_eq g e) _).trans
        (probeBody_admitted hpe h hr hd hacc hre (lslAnswer_run g d s)))
  · refine ⟨?_, ?_, ?_, segment_or_contains_iff d _, segment_or_contains_iff d _⟩
    · rw [reaches_iff, mayUse_iff]
    · rw [readOk, Bool.and_eq_true, readable_iff, reaches_iff, mayUse_iff, and_assoc]
    · rw [writeOk, Bool.and_eq_true, writableData_iff, mayUse_iff, and_assoc, and_assoc]

end Sys2Proof.Machine
end

section
/-! PROOFS. MOV with the control, debug and test registers, and the TLB test commands (O59). -/

namespace Sys2Proof.Machine

variable {s : State} {t : Tx}

/-! ## Numbers that name no register -/

section

variable {n : BitVec 3} (t : Tx)

theorem cr_undefined (hn : n ∈ [1#3, 4#3, 5#3, 6#3, 7#3]) :
    readCr n t = .error (.raise { vec := 6, err := none }) t ∧
      ∀ v, writeCr n v t = .error (.raise { vec := 6, err := none }) t := by
  simp only [List.mem_cons, List.not_mem_nil, or_false] at hn
  rcases hn with rfl | rfl | rfl | rfl | rfl <;> exact ⟨rfl, fun _ => rfl⟩

theorem dr_undefined (hn : n ∈ [4#3, 5#3]) :
    readDr n t = .error (.raise { vec := 6, err := none }) t ∧
      ∀ v, writeDr n v t = .error (.raise { vec := 6, err := none }) t := by
  simp only [List.mem_cons, List.not_mem_nil, or_false] at hn
  rcases hn with rfl | rfl <;> exact ⟨rfl, fun _ => rfl⟩

theorem tr_undefined (hn : n ∈ [0#3, 1#3, 2#3, 3#3, 4#3, 5#3]) :
    readTr n t = .error (.raise { vec := 6, err := none }) t ∧
      ∀ v, writeTr n v t = .error (.raise { vec := 6, err := none }) t := by
  simp only [List.mem_cons, List.not_mem_nil, or_false] at hn
  rcases hn with rfl | rfl | rfl | rfl | rfl | rfl <;> exact ⟨rfl, fun _ => rfl⟩

end

/-! ## Moves that succeed -/

section

variable {read : M Dword} {write : Dword → M Unit} {r : Gpr} {v : Dword} {u b : State} {x : Bool}

/-- A move from a register that is read: the value, then the open flags. -/
theorem fromSpecial_next (hl : s.ctx.lock = false) (h : read (Tx.start s) = .ok v ⟨u, b, x⟩) :
    seqInstr false (fromSpecial read r) s = .next (s.finish (u.setGpr r v).flagsOpen) :=
  seqInstr_next hl (bind_then h (bind_then (upd_run _ _) (anyFlags_run _)))

/-- A move to a register that is written: what the write leaves, then the open flags. -/
theorem toSpecial_next (hl : s.ctx.lock = false) (h : write (s.gpr r) (Tx.start s) = .ok () ⟨u, b, x⟩) :
    seqInstr false (toSpecial write r) s = .next (s.finish u.flagsOpen) :=
  seqInstr_next hl (bind_then (look_run _ _) (bind_then h (anyFlags_run _)))

/-- A move to a register that the model refuses. -/
theorem toSpecial_refused {ref : Refusal} (hl : s.ctx.lock = false)
    (h : write (s.gpr r) (Tx.start s) = .error (.refuse ref) t) :
    seqInstr false (toSpecial write r) s = .refused ref :=
  instr_refused hl (bind_run_error (bind_then (look_run _ _) (bind_run_error h)))

end

/-! ## Loads of CR0, CR3 and DR7 -/

section

variable {v : Dword}

/-- CR0 takes every value but PG without PE (46_system.md R800). -/
theorem writeCr0_run (hp : t.cur.privileged = true) (h : v.getLsbD 31 = false ∨ v.getLsbD 0 = true) :
    writeCr 0 v t = .ok () { t with cur := { t.cur with cr0 := v &&& 0x8000001F } } :=
  needPrivilege_then hp (bind_then (need_run (by rcases h with h | h <;> rw [h] <;> simp)) (upd_run _ t))

/-- PG without PE is a general protection fault. -/
theorem writeCr0_fault (hx : t.ext = false) (hp : t.cur.privileged = true) (hpg : v.getLsbD 31 = true)
    (hpe : v.getLsbD 0 = false) : writeCr 0 v t = .error (.raise { vec := 13, err := some 0 }) t :=
  needPrivilege_then hp (need_stop (by rw [hpg, hpe]; rfl) (raiseGP0_run hx))

/-- A load of CR3 empties the TLB (20_memory.md R262). -/
theorem writeCr3_run (hp : t.cur.privileged = true) :
    writeCr 3 v t = .ok () { t with cur := { t.cur with cr3 := v &&& 0xFFFFF000 }.flushTlb } :=
  needPrivilege_then hp (upd_run _ t)

/-- The values of DR7 that the model accepts are those that enable no breakpoint (10_state.md R98). -/
theorem accepted_iff_noBreakpoint (v : Dword) :
    (!(v.extractLsb' 0 8 != 0 || v.getLsbD 13)) = true ↔ v &&& 0x20FF = 0 := by
  refine ⟨noBreakpoint_of_accepted v, fun h => ?_⟩
  have hbit (j : Nat) (hj : (0x20FF : Dword).getLsbD j = true) : v.getLsbD j = false := by
    have hand : (v &&& 0x20FF).getLsbD j = (0 : Dword).getLsbD j := congrArg (·.getLsbD j) h
    rw [BitVec.getLsbD_and, hj, Bool.and_true] at hand
    exact hand.trans BitVec.getLsbD_zero
  have hlow : v.extractLsb' 0 8 = 0 := by
    refine BitVec.eq_of_getLsbD_eq fun j hj => ?_
    rw [BitVec.getLsbD_extractLsb', Nat.zero_add, hbit j (by revert hj; revert j; decide), Bool.and_false]
    exact BitVec.getLsbD_zero.symm
  rw [hlow, hbit 13 rfl]
  rfl

theorem writeDr7_run (hp : t.cur.privileged = true) (h : v &&& 0x20FF = 0) :
    writeDr 7 v t = .ok () { t with cur := { t.cur with dr7 := v } } :=
  needPrivilege_then hp (bind_then (need_run ((accepted_iff_noBreakpoint v).mpr h)) (upd_run _ t))

theorem writeDr7_refused (hp : t.cur.privileged = true) (h : v &&& 0x20FF ≠ 0) :
    writeDr 7 v t = .error (.refuse .breakpointEnabled) t :=
  needPrivilege_then hp <|
    need_stop (Bool.eq_false_iff.mpr (mt (accepted_iff_noBreakpoint v).mp h)) (refuse_run _ t)

end

/-- The end of an instruction leaves what translation looks at. -/
theorem finish_translation (s t : State) :
    (s.finish t).cr0 = t.cr0 ∧ (s.finish t).tlb = t.tlb ∧ (s.finish t).tlbDup = t.tlbDup := by
  unfold State.finish complete
  split <;> split <;> exact ⟨rfl, rfl, rfl⟩

/-- What is hit depends on the entries of the TLB alone. -/
theorem tlbHits_congr {u : State} (h : u.tlb = s.tlb) (la : Dword) : u.tlbHits la = s.tlbHits la := by
  simp only [State.tlbHits, State.tlbEntry, h]

/-- Leaving the flags open leaves what translation looks at. -/
theorem flagsOpen_translation (s : State) :
    s.flagsOpen.cr0 = s.cr0 ∧ s.flagsOpen.tlb = s.tlb ∧ s.flagsOpen.tlbDup = s.tlbDup := ⟨rfl, rfl, rfl⟩

/-- After an instruction that emptied the TLB, every translation walks the tables (20_memory.md R242, R262). -/
theorem translate_after_flush (u : State) (hp : u.pg = true) (la : Dword) (write user : Bool) :
    translate la write user (Tx.start (s.finish u.flushTlb.flagsOpen)) =
      pageWalk la write user (Tx.start (s.finish u.flushTlb.flagsOpen)) := by
  obtain ⟨hcr0, htlb, hdup⟩ := finish_translation s u.flushTlb.flagsOpen
  obtain ⟨hcr0', htlb', hdup'⟩ := flagsOpen_translation u.flushTlb
  refine translate_walk ?_ ?_ ?_
  · exact (congrArg (·.getLsbD 31) (hcr0.trans hcr0')).trans hp
  · exact congrArg (·.contains (tlbTag la)) (hdup.trans hdup')
  · exact (tlbHits_congr (htlb.trans htlb') la).trans (flushTlb_tlbHits u la)

/-! ## The TLB write command -/

/-- A write command with HT = 1 and no duplicate tag places one entry (20_memory.md R271). -/
theorem tlbWriteCommand_run {v : Dword} (hht : t.cur.tr7.getLsbD 4 = true)
    (hdup : t.cur.duplicateTag v (t.cur.tr7.extractLsb' 2 2).toNat = false) :
    ∃ b, tlbWriteCommand v t = .ok () { t with
      cur := (t.cur.drawn 1).setTlbEntry v (t.cur.tr7.extractLsb' 2 2).toNat (testEntry v t.cur.tr7 (t.cur.any 0))
      base := b } :=
  ⟨_, bind_then (look_run _ t) <| if_else (by rw [hht]; decide) <| bind_then (anyD_run t) <|
    bind_then (look_run _ _) <| if_else (ne_true_of_eq_false hdup) (updBoth_run _ _)⟩

/-! ## The TLB lookup command -/

/-- A pair of TR6 bits, one by one or as a field (20_memory.md R273). -/
theorem pairMatch_eq_pairAdmits (v : Dword) (i : Nat) (b x : Bool) :
    pairMatch (v.getLsbD (i + 1)) (v.getLsbD i) b x = pairAdmits (v.extractLsb' i 2) b x := by
  have hlow : (v.extractLsb' i 2).getLsbD 0 = v.getLsbD i := by simp
  have hhigh : (v.extractLsb' i 2).getLsbD 1 = v.getLsbD (i + 1) := by simp
  have hpair : ∀ (p : BitVec 2) (b x : Bool), pairMatch (p.getLsbD 1) (p.getLsbD 0) b x = pairAdmits p b x := by
    decide
  rw [← hlow, ← hhigh, hpair]

/-- What a way is matched by: the free value that is drawn for it. -/
theorem wayMatches_eq (s : State) (v : Dword) (way : Nat) :
    s.wayMatches v way = (s.tlbEntry v way).matchesTest v (s.any (1 + way)) := by
  simp only [State.wayMatches, TlbEntry.matchesTest, ← pairMatch_eq_pairAdmits]

/-- What an entry of a way is depends on the entries of the TLB alone. -/
theorem tlbEntry_congr {u : State} (h : u.tlb = s.tlb) (v : Dword) (way : Nat) :
    u.tlbEntry v way = s.tlbEntry v way := by
  simp only [State.tlbEntry, h]

/-- The ways from `k` on are tested one after the other, each with a draw of its own; `s` is the state in which the
command began, one draw before way 0. -/
theorem matchingWays_run (v : Dword) {n k : Nat} {t : Tx} (hc : t.cur.freeCtr = s.freeCtr + (1 + k))
    (ht : t.cur.tlb = s.tlb) :
    matchingWays v (List.range' k n) t =
      .ok ((List.range' k n).filter (s.wayMatches v)) { t with cur := t.cur.drawn n, base := t.base.drawn n } := by
  induction n generalizing k t with
  | zero => rfl
  | succ n ih =>
    have hrest := ih (k := k + 1) (t := { t with cur := t.cur.drawn 1, base := t.base.drawn 1 })
      (by rw [drawn_freeCtr, hc]; omega) ht
    rw [drawn_drawn, drawn_drawn, Nat.add_comm 1 n] at hrest
    have hway : (t.cur.tlbEntry v k).matchesTest v (Config.freeValue t.cur.freeCtr) = s.wayMatches v k := by
      rw [wayMatches_eq, tlbEntry_congr ht, hc]
      rfl
    refine bind_then (anyD_run t) (bind_then hrest (bind_then (look_run _ _) ?_))
    rw [List.range'_succ, List.filter_cons]
    cases hm : s.wayMatches v k with
    | true => exact if_then (hway.trans hm) rfl
    | false => exact if_else (ne_true_of_eq_false (hway.trans hm)) rfl

/-- All four ways are tested after the first draw of the command. -/
theorem matchingWays_all (v : Dword) (t : Tx) :
    matchingWays v (List.range Config.tlbWays) { t with cur := t.cur.drawn 1, base := t.base.drawn 1 } =
      .ok ((List.range 4).filter (t.cur.wayMatches v)) { t with cur := t.cur.drawn 5, base := t.base.drawn 5 } := by
  rw [show Config.tlbWays = 4 from rfl, List.range_eq_range']
  exact matchingWays_run v (k := 0) rfl rfl

/-- TR6 with the pairs of an entry set, as a field or pair by pair (20_memory.md R272). -/
theorem intoTr6_eq_foundIn (e : TlbEntry) (v : Dword) : e.intoTr6 v = e.foundIn v := by
  unfold TlbEntry.intoTr6 TlbEntry.foundIn putField
  rw [BitVec.or_assoc, BitVec.or_assoc]
  cases e.d <;> cases e.u <;> cases e.w <;> rfl

/-- TR7 after a lookup that finds way `way`: HT = 1 and the way in REP (20_memory.md R272). -/
theorem tr7_found {way : Nat} (h : way < 4) :
    0x010#12 ||| BitVec.ofNat 12 (4 * way) = BitVec.ofNat 12 (16 + 4 * way) := by
  revert way
  decide

/-- The only way that matches is the list of those that match. -/
theorem filter_range_unique {p : Nat → Bool} {n way : Nat} (hn : way < n) (hp : p way = true)
    (hother : ∀ other < n, other ≠ way → p other = false) : (List.range n).filter p = [way] := by
  have hcongr : (List.range n).filter p = (List.range n).filter (· == way) := by
    refine List.filter_congr fun k hk => ?_
    by_cases hkw : k = way
    · rw [hkw, hp, beq_self_eq_true]
    · rw [hother k (List.mem_range.mp hk) hkw, beq_false_of_ne hkw]
  rw [hcongr, List.filter_beq, List.count_eq_one_of_mem List.nodup_range (List.mem_range.mpr hn)]
  rfl

section

variable {v : Dword} (hv : v.getLsbD 11 = true) (hd : t.cur.tlbDup.contains (tlbTag v) = false)
include hv hd

/-- A lookup that finds nothing clears HT and leaves the address and REP of TR7 open (20_memory.md R272, log 21). -/
theorem tlbLookupCommand_miss (hnone : ∀ way < 4, t.cur.wayMatches v way = false) :
    tlbLookupCommand v t = .ok () { t with
      cur := { t.cur.drawn 5 with tr7 := t.cur.any 0 &&& 0xFFFFF00C }, base := t.base.drawn 5 } := by
  have hways : (List.range 4).filter (t.cur.wayMatches v) = [] :=
    List.filter_eq_nil_iff.mpr fun way hw => ne_true_of_eq_false (hnone way (List.mem_range.mp hw))
  refine bind_then (anyD_run t) <| bind_then (look_run _ _) <| if_else (ne_true_of_eq_false hd) <|
    if_else (by rw [hv]; decide) <| bind_then (matchingWays_all v t) ?_
  rw [hways]
  rfl

/-- A lookup that finds one entry sets the pairs of TR6 and TR7 from it (20_memory.md R272). -/
theorem tlbLookupCommand_found {way : Nat} (hlt : way < 4) (hway : t.cur.wayMatches v way = true)
    (hother : ∀ other < 4, other ≠ way → t.cur.wayMatches v other = false) :
    tlbLookupCommand v t = .ok () { t with
      cur := { t.cur.drawn 5 with
        tr6 := (t.cur.tlbEntry v way).foundIn v
        tr7 := (t.cur.tlbEntry v way).frame ++ BitVec.ofNat 12 (16 + 4 * way) }
      base := t.base.drawn 5 } := by
  refine bind_then (anyD_run t) <| bind_then (look_run _ _) <| if_else (ne_true_of_eq_false hd) <|
    if_else (by rw [hv]; decide) <| bind_then (matchingWays_all v t) ?_
  rw [filter_range_unique hlt hway hother, ← tr7_found hlt, ← intoTr6_eq_foundIn]
  rfl

end

/-! ## The obligation -/

section

variable {v : Dword} {x : EStateM.Result Stop Tx Unit}

/-- Loading TR6 with the command bit set runs the lookup (46_system.md R810). -/
theorem writeTr6_lookup (hp : t.cur.privileged = true) (hc : v.getLsbD 0 = true)
    (h : tlbLookupCommand v { t with cur := { t.cur with tr6 := v } } = x) : writeTr 6 v t = x :=
  needPrivilege_then hp (bind_then (upd_run _ t) (if_then hc h))

/-- Loading TR6 with the command bit clear runs the write. -/
theorem writeTr6_write (hp : t.cur.privileged = true) (hc : v.getLsbD 0 = false)
    (h : tlbWriteCommand v { t with cur := { t.cur with tr6 := v } } = x) : writeTr 6 v t = x :=
  needPrivilege_then hp (bind_then (upd_run _ t) (if_else (ne_true_of_eq_false hc) h))

end

/-- A load of CR3 orders translation: with paging on, every later translation walks the tables (20_memory.md R242). -/
theorem translate_after_loadCr3 {r : Gpr} {u : State} (hl : s.ctx.lock = false) (hp : s.privileged = true)
    (hpg : s.pg = true) (hu : exec (.movCdRd 3 r) s = .next u) (la : Dword) (write user : Bool) :
    translate la write user (Tx.start u) = pageWalk la write user (Tx.start u) := by
  have hcr3 : exec (.movCdRd 3 r) s =
      .next (s.finish (State.flushTlb { s with cr3 := s.gpr r &&& 0xFFFFF000 }).flagsOpen) :=
    toSpecial_next hl (writeCr3_run hp)
  rw [hcr3] at hu
  cases hu
  exact translate_after_flush { s with cr3 := s.gpr r &&& 0xFFFFF000 } hpg la write user

/-- Settles O59: each number is one arm of a read or a write; the commands of TR6 go by the ways of one set. -/
theorem specialRegisterMoves : Obligations.SpecialRegisterMoves := by
  intro s r hl
  simp only [exec_movRdCd, exec_movRdDd, exec_movRdTd, exec_movCdRd, exec_movDdRd, exec_movTdRd]
  refine ⟨fun n hn => special_trapped hl (cr_undefined _ hn), fun n hn => special_trapped hl (dr_undefined _ hn),
    fun n hn => special_trapped hl (tr_undefined _ hn), fun hp => ?_⟩
  refine ⟨?_, ?_, ?_, fun hpg hpe => ?_, fun h => ?_, ?_, ?_, fun t ht hpg la write user => ?_, ?_, ?_, ?_, ?_, ?_, ?_,
    ?_, ?_, ?_, ?_, ?_, fun h => ?_, fun h => ?_, ?_, ?_, ?_, fun hc hht hdup => ?_,
    fun hc hv hd => ⟨fun hnone => ?_, fun way hlt hway hother => ?_⟩⟩
  · exact fromSpecial_next hl (needPrivilege_then hp (bind_then (anyD_run _) (look_run _ _)))
  · exact fromSpecial_next hl (needPrivilege_then hp (look_run _ _))
  · exact fromSpecial_next hl (needPrivilege_then hp (bind_then (anyD_run _) (look_run _ _)))
  · exact toSpecial_trapped hl (writeCr0_fault rfl hp hpg hpe)
  · exact toSpecial_next hl (writeCr0_run hp h)
  · exact toSpecial_next hl (needPrivilege_then hp (upd_run _ _))
  · exact toSpecial_next hl (writeCr3_run hp)
  · exact translate_after_loadCr3 hl hp hpg ht la write user
  · exact fromSpecial_next hl (needPrivilege_then hp (look_run _ _))
  · exact fromSpecial_next hl (needPrivilege_then hp (look_run _ _))
  · exact fromSpecial_next hl (needPrivilege_then hp (look_run _ _))
  · exact fromSpecial_next hl (needPrivilege_then hp (look_run _ _))
  · exact fromSpecial_next hl (needPrivilege_then hp (look_run _ _))
  · exact fromSpecial_next hl (needPrivilege_then hp (look_run _ _))
  · exact toSpecial_next hl (needPrivilege_then hp (upd_run _ _))
  · exact toSpecial_next hl (needPrivilege_then hp (upd_run _ _))
  · exact toSpecial_next hl (needPrivilege_then hp (upd_run _ _))
  · exact toSpecial_next hl (needPrivilege_then hp (upd_run _ _))
  · exact toSpecial_next hl (needPrivilege_then hp (upd_run _ _))
  · exact toSpecial_next hl (writeDr7_run hp h)
  · exact toSpecial_refused hl (writeDr7_refused hp h)
  · exact fromSpecial_next hl (needPrivilege_then hp (bind_then (anyD_run _) (look_run _ _)))
  · exact fromSpecial_next hl (needPrivilege_then hp (bind_then (anyD_run _) (look_run _ _)))
  · exact toSpecial_next hl (needPrivilege_then hp (upd_run _ _))
  · obtain ⟨b, hb⟩ := tlbWriteCommand_run (v := s.gpr r) (t := ⟨{ s with tr6 := s.gpr r }, s, false⟩) hht hdup
    exact toSpecial_next hl (writeTr6_write hp hc hb)
  · exact toSpecial_next hl (writeTr6_lookup hp hc (tlbLookupCommand_miss hv hd hnone))
  · exact toSpecial_next hl (writeTr6_lookup hp hc (tlbLookupCommand_found hv hd hlt hway hother))

end Sys2Proof.Machine
end

section
/-! PROOFS. Taking an event is its acknowledge and its delivery; taking an exception, and the flags that it saves and leaves
(O43, O44). The delivery itself stands with the software interrupts, in Laws/Event.lean and in Laws/Task.lean. -/

namespace Sys2Proof.Machine

variable {s u : State} {e : Event}

/-! ## The acknowledge, then the delivery -/

/-- The acknowledge of `e` in the state `s` leaves the working state `u`. -/
def Acknowledged (e : Event) (s u : State) : Prop :=
  ∃ b, acknowledge e { cur := s, base := s, ext := e.kind.ext } = .ok () { cur := u, base := b, ext := e.kind.ext }

/-- The event is taken by a handler of the level of the program. -/
theorem takeEvent_entered (ha : Acknowledged e s u) (h : u.canEnter e.vec e.kind e.err = true) :
    takeEvent e s = .next { u.entered e.vec e.kind e.err s.eip with ctx := Ctx.empty } := by
  obtain ⟨b, hb⟩ := ha
  obtain ⟨c, hc⟩ := deliver_entered (t := ⟨u, b, e.kind.ext⟩) (eip := s.eip) h
  exact takeEvent_run hb hc

/-- The event is taken by a handler of an inner level. -/
theorem takeEvent_inner {g d sd : Desc} (ha : Acknowledged e s u) (h : u.entersInner e.vec e.kind e.err g d sd) :
    takeEvent e s =
      .next { u.enteredInner g d sd (flagsImage u.eflags e.vec e.kind) s.eip e.err with ctx := Ctx.empty } := by
  obtain ⟨b, hb⟩ := ha
  obtain ⟨c, hc⟩ := deliver_inner (t := ⟨u, b, e.kind.ext⟩) (eip := s.eip) h
  exact takeEvent_run hb hc

/-- The event is taken by a task, with the error code on its stack. -/
theorem takeEvent_task {g d : Desc} {v : State} (ha : Acknowledged e s u) (h : u.entersTask e.vec e.kind g d)
    (hv : u.switchTo g.gateSel d .int s.eip (flagsImage u.eflags e.vec e.kind) = .ok v) (he : v.canErr e.err = true) :
    takeEvent e s = .next { (v.withErr e.err).taskTrap (u.tssImage d.base) with ctx := Ctx.empty } := by
  obtain ⟨b, hb⟩ := ha
  obtain ⟨-, -, -, -, -, hswitch⟩ := id h
  obtain ⟨c, hc⟩ := taskSwitch_ok (t := ⟨u, b, e.kind.ext⟩) (err := e.err) hswitch hv he
  exact takeEvent_run hb (deliver_switch (t := ⟨u, b, e.kind.ext⟩) h hc)

/-! ## The running processor

An exception is delivered from the state with the processor running, while the obligations speak of delivery from the state
as it was. Delivery neither reads nor writes `run`, so the two agree. -/

/-- The processor runs: what the acknowledge of an exception makes of the state. -/
def State.resumed (s : State) : State := { s with run := .running }

/-- An exception that the processor detected, as an event (60_exceptions.md R902). -/
def Event.ofFault (vec : Byte) (err : Option Word) : Event :=
  { vec := vec, kind := .exception, err := err, taking := .fault }

/-- The acknowledge of an exception. -/
theorem acknowledged_fault (h : e.taking = .fault) : Acknowledged e s s.resumed := by
  refine ⟨s, ?_⟩
  unfold acknowledge
  rw [h]
  rfl

/-! What is read of the state, then the updates of other fields, then the stores. -/

@[simp] theorem resumed_pe (s : State) : s.resumed.pe = s.pe := rfl
@[simp] theorem resumed_cpl (s : State) : s.resumed.cpl = s.cpl := rfl
@[simp] theorem resumed_eflags (s : State) : s.resumed.eflags = s.eflags := rfl
@[simp] theorem resumed_segs (s : State) : s.resumed.segs = s.segs := rfl
@[simp] theorem resumed_stack32 (s : State) : s.resumed.stack32 = s.stack32 := rfl
@[simp] theorem resumed_gpr (s : State) (r : Gpr) : s.resumed.gpr r = s.gpr r := rfl
@[simp] theorem resumed_any (s : State) (k : Nat) : s.resumed.any k = s.any k := rfl
@[simp] theorem resumed_kindAt (s : State) (pa : Nat) : s.resumed.kindAt pa = s.kindAt pa := rfl
@[simp] theorem resumed_frame (s : State) (k : Nat) (flags eip : Dword) (err : Option Word) :
    s.resumed.frame k flags eip err = s.frame k flags eip err := rfl
@[simp] theorem resumed_realVector (s : State) (v : Byte) : s.resumed.realVector v = s.realVector v := rfl
@[simp] theorem resumed_gateFor (s : State) (v : Byte) : s.resumed.gateFor v = s.gateFor v := rfl
@[simp] theorem resumed_descFor (s : State) (sel : Word) : s.resumed.descFor sel = s.descFor sel := rfl
@[simp] theorem resumed_tssStackAt (s : State) (lvl : BitVec 2) : s.resumed.tssStackAt lvl = s.tssStackAt lvl := rfl
@[simp] theorem resumed_canPushAll (s : State) (n count : Nat) :
    s.resumed.canPushAll n count = s.canPushAll n count := rfl
@[simp] theorem resumed_canEnter (s : State) (v : Byte) (kind : EventKind) (err : Option Word) :
    s.resumed.canEnter v kind err = s.canEnter v kind err := rfl
@[simp] theorem resumed_drawn (s : State) (k : Nat) : s.resumed.drawn k = (s.drawn k).resumed := rfl
@[simp] theorem resumed_setSeg (s : State) (r : Sreg) (g : SegReg) : s.resumed.setSeg r g = (s.setSeg r g).resumed := rfl
@[simp] theorem resumed_putFlag (s : State) (i : Nat) (b : Bool) :
    s.resumed.putFlag i b = (s.putFlag i b).resumed := rfl
@[simp] theorem resumed_goTo (s : State) (off : Dword) : s.resumed.goTo off = (s.goTo off).resumed := rfl

@[simp] theorem resumed_storeByte (s : State) (pa : Dword) (b : Byte) :
    s.resumed.storeByte pa b = (s.storeByte pa b).resumed := by
  unfold State.storeByte
  rw [resumed_kindAt]
  cases s.kindAt pa.toNat <;> rfl

@[simp] theorem resumed_storeBytes (s : State) (pas : List Dword) (bs : List Byte) :
    s.resumed.storeBytes pas bs = (s.storeBytes pas bs).resumed :=
  List.foldl_hom State.resumed fun t c => resumed_storeByte t c.1 c.2

@[simp] theorem resumed_setSp (s : State) (v : Dword) : s.resumed.setSp v = (s.setSp v).resumed := by
  unfold State.setSp
  rw [resumed_stack32]
  cases s.stack32 <;> rfl

@[simp] theorem resumed_pushedAll (s : State) (n : Nat) (vs : List Dword) :
    s.resumed.pushedAll n vs = (s.pushedAll n vs).resumed := by
  have hstore : ((s.pushOffs n vs.length).zip vs).foldl
        (fun t c => t.storeBytes (s.addrs .ss c.1 n) (leBytes n c.2)) s.resumed =
      State.resumed (((s.pushOffs n vs.length).zip vs).foldl
        (fun t c => t.storeBytes (s.addrs .ss c.1 n) (leBytes n c.2)) s) :=
    List.foldl_hom State.resumed fun t c => resumed_storeBytes t (s.addrs .ss c.1 n) (leBytes n c.2)
  exact (congrArg (State.setSp · _) hstore).trans (resumed_setSp _ _)

@[simp] theorem resumed_accessed (s : State) (d : Desc) : s.resumed.accessed d = (s.accessed d).resumed := by
  unfold State.accessed
  split
  · rfl
  · exact resumed_storeByte s _ _

@[simp] theorem resumed_enterCode (s : State) (sel : Word) (lvl : BitVec 2) (d : Desc) (off : Dword) :
    s.resumed.enterCode sel lvl d off = (s.enterCode sel lvl d off).resumed := by
  simp only [State.enterCode, resumed_accessed, resumed_setSeg, resumed_goTo]

@[simp] theorem resumed_onInner (s : State) (lvl : BitVec 2) (sel : Word) (sd : Desc) (esp : Dword) :
    s.resumed.onInner lvl sel sd esp = (s.onInner lvl sel sd esp).resumed := by
  have hlevel : ({ s.resumed with cpl := lvl } : State) = State.resumed { s with cpl := lvl } := rfl
  simp only [State.onInner, hlevel, resumed_accessed, resumed_setSeg, resumed_setSp]

/-- Delivery without a change of level does not look at what the processor was doing. -/
theorem resumed_entered (s : State) (v : Byte) (kind : EventKind) (err : Option Word) (eip : Dword) :
    s.resumed.entered v kind err eip = (s.entered v kind err eip).resumed := by
  unfold State.entered
  rw [resumed_pe]
  split
  · unfold State.enteredSame
    rw [resumed_gateFor]
    cases s.gateFor v with
    | none => rfl
    | some g =>
      simp only [resumed_descFor]
      cases s.descFor g.gateSel with
      | none => rfl
      | some d =>
        simp only [resumed_eflags, resumed_cpl, resumed_frame, resumed_drawn, resumed_pushedAll, resumed_enterCode]
        rfl
  · simp only [State.enteredReal, State.enterReal, resumed_eflags, resumed_segs, resumed_realVector, resumed_pushedAll,
      resumed_putFlag, resumed_setSeg, resumed_goTo]

/-- Nor does delivery on an inner stack. -/
theorem resumed_enteredInner (s : State) (g d sd : Desc) (flags eip : Dword) (err : Option Word) :
    s.resumed.enteredInner g d sd flags eip err = (s.enteredInner g d sd flags eip err).resumed := by
  simp only [State.enteredInner, resumed_tssStackAt, resumed_any, resumed_segs, resumed_gpr, resumed_frame,
    resumed_eflags, resumed_drawn, resumed_onInner, resumed_pushedAll, resumed_enterCode]
  rfl

/-! ## Taking an exception -/

/-- The flags that are pushed: RF set for a fault that is no debug fault (60_exceptions.md R903). -/
theorem flagsImage_getLsbD (flags : Dword) (v : Byte) (kind : EventKind) (i : Nat) :
    (flagsImage flags v kind).getLsbD i =
      (flags.getLsbD i || (i == 16 && kind == .exception && v != 1 && v != 8)) := by
  unfold flagsImage
  by_cases hset : kind = .exception ∧ v ≠ 1 ∧ v ≠ 8
  · obtain ⟨hk, h1, h8⟩ := id hset
    rw [if_pos hset, getLsbD_putBit, hk, bne_iff_ne.mpr h1, bne_iff_ne.mpr h8]
    by_cases hi : i = 16 <;> simp [hi]
  · have hno : (kind == .exception && v != 1 && v != 8) = false := by simpa [and_assoc] using hset
    rw [if_neg hset, Bool.and_assoc, Bool.and_assoc, ← Bool.and_assoc (kind == _), hno, Bool.and_false, Bool.or_false]

/-- The flags of the handler: TF, NT and RF are 0, and IF through an interrupt gate (60_exceptions.md R947). -/
theorem entryFlags_getLsbD (flags : Dword) (interruptGate : Bool) (i : Nat) :
    (entryFlags flags interruptGate).getLsbD i =
      (flags.getLsbD i && !(i == 8 || i == 14 || i == 16 || (i == 9 && interruptGate))) := by
  have hclear (v : Dword) (k : Nat) : (putBit v k false).getLsbD i = (v.getLsbD i && !(i == k)) := by
    rw [getLsbD_putBit]
    by_cases hi : i = k <;> simp [hi]
  unfold entryFlags
  cases interruptGate <;> simp [hclear, Bool.and_assoc]

/-- Settles O43: an exception is acknowledged by running on, then delivered. -/
theorem exceptionEntry : Obligations.ExceptionEntry := by
  refine ⟨fun s vec err h => ?_, fun flags vec kind i _ => flagsImage_getLsbD flags vec kind i,
    fun flags interruptGate i _ => entryFlags_getLsbD flags interruptGate i,
    fun s vec err g d hpe hg hs ht hp hn hti hd hf hc t hv he => ?_⟩
  · have htaken := takeEvent_entered (e := .ofFault vec err) (acknowledged_fault rfl)
      ((resumed_canEnter s vec .exception err).trans h)
    rw [resumed_entered] at htaken
    exact htaken
  · have henters : s.resumed.entersTask vec .exception g d := ⟨hpe, hg, by simp [hs, ht, hp, hn, hti], hd, hf, hc⟩
    have htaken := takeEvent_task (e := .ofFault vec err) (acknowledged_fault rfl) henters hv he
    exact htaken

/-- Settles O44: the same on the stack that the TSS gives. -/
theorem exceptionEntryToInnerLevel : Obligations.ExceptionEntryToInnerLevel := by
  intro s vec err g d sd hpe hg hfit hd hcode hp hconf hlt hoff hsd hin hpush
  have henters : s.resumed.entersInner vec .exception err g d sd :=
    ⟨hpe, hg, hfit, hd, by simp [hcode, hp, hconf, hlt, hoff], hsd, hin, by simpa using hpush⟩
  have htaken := takeEvent_inner (e := .ofFault vec err) (acknowledged_fault rfl) henters
  rw [resumed_enteredInner] at htaken
  exact htaken

end Sys2Proof.Machine
end

section
/-! PROOFS. The instruction boundary: which event it takes and what taking it does (O47), and which exception follows one met
during a delivery (O49). -/

namespace Sys2Proof.Machine

variable {s u : State} {e : Event}

/-! ## Which event a boundary takes -/

/-- Behind MOV SS or POP SS, and in shutdown, nothing is taken (60_exceptions.md R925, 70_reset_and_hazards.md R1116). -/
theorem pendingEvent_inhibited (h : s.inhibitSS = true ∨ s.run = .shutdown) : s.pendingEvent = none := by
  unfold State.pendingEvent
  obtain hss | hrun := h
  · cases s.intr <;> simp [hss]
  · rw [if_pos hrun]

section

variable (hss : s.inhibitSS = false) (hrun : s.run ≠ .shutdown)
include hss hrun

/-- The debug trap comes first (60_exceptions.md R915). -/
theorem pendingEvent_trap (ht : s.trapPending = true) :
    s.pendingEvent = some { vec := 1, kind := .exception, err := none, taking := .trap } := by
  simp [State.pendingEvent, hss, hrun, ht]

/-- Then NMI, unless one is in service (60_exceptions.md R911). -/
theorem pendingEvent_nmi (ht : s.trapPending = false) (hn : s.nmi = true) (hl : s.nmiLatch = false) :
    s.pendingEvent = some { vec := 2, kind := .external, err := none, taking := .nmi } := by
  simp [State.pendingEvent, hss, hrun, ht, hn, hl]

/-- Then INTR, with IF set and not behind STI (60_exceptions.md R912, 45_flag_misc.md R731). -/
theorem pendingEvent_intr {v : Byte} (ht : s.trapPending = false) (hn : (s.nmi && !s.nmiLatch) = false)
    (hi : s.intr = some v) :
    s.pendingEvent =
      if s.if' && !s.inhibitSTI then some { vec := v, kind := .external, err := none, taking := .intr } else none := by
  simp [State.pendingEvent, hss, hrun, ht, hn, hi]

end

/-- Without a request nothing is taken. -/
theorem pendingEvent_none (ht : s.trapPending = false) (hn : (s.nmi && !s.nmiLatch) = false) (hi : s.intr = none) :
    s.pendingEvent = none := by
  simp [State.pendingEvent, ht, hn, hi]

/-- NMI is not taken where it is not requested, or one is in service. -/
theorem nmi_not_taken (h : s.nmi = false ∨ s.nmiLatch = true) : (s.nmi && !s.nmiLatch) = false := by
  simpa [or_iff_not_imp_left] using h

/-- Where no debug trap is taken none is pending, but one that the shadow of MOV SS holds off (60_exceptions.md R925). -/
theorem trap_not_due (hrun : s.run ≠ .shutdown) (h : ∀ e, s.pendingEvent = some e → e.taking ≠ .trap) :
    (s.trapPending && !s.inhibitSS) = false := by
  by_contra hdue
  obtain ⟨ht, hss⟩ : s.trapPending = true ∧ s.inhibitSS = false := by simpa using hdue
  exact h _ (pendingEvent_trap hss hrun ht) rfl

/-! ## What taking it does -/

/-- The state after a boundary at which no debug trap is pending any more: the shadows are over (60_exceptions.md R915). -/
def State.pastBoundary (s : State) : State := { s with inhibitSS := false, inhibitSTI := false, trapPending := false }

/-- The acknowledge of the debug trap (log 12). -/
theorem acknowledged_trap : Acknowledged { vec := 1, kind := .exception, err := none, taking := .trap }
    { s with inhibitSS := false, inhibitSTI := false, trapPending := s.trapPending && !s.inhibitSS }
    s.pastBoundary.resumed := ⟨_, rfl⟩

/-- The acknowledge of NMI: the request is gone and NMI service begins (60_exceptions.md R911). -/
theorem acknowledged_nmi : Acknowledged { vec := 2, kind := .external, err := none, taking := .nmi } s
    { s.resumed with nmi := false, nmiLatch := true } := ⟨_, rfl⟩

/-- The acknowledge of INTR: the request is gone and the cycle is recorded (60_exceptions.md R912). -/
theorem acknowledged_intr (v : Byte) : Acknowledged { vec := v, kind := .external, err := none, taking := .intr } s
    { s.resumed with intr := none, ioLog := s.ioLog ++ [.intAck v] } := ⟨_, rfl⟩

/-- The step that takes the event `e` enters its handler, in one of the three ways, from the state `u` that the acknowledge
leaves, as O47 puts it. -/
def State.takes (s : State) (e : Event) (u : State) : Prop :=
  s.pendingEvent = some e →
    (u.canEnter e.vec e.kind none = true →
      step s = .next { u.entered e.vec e.kind none s.eip with ctx := Ctx.empty }) ∧
    (∀ g d sd, u.entersInner e.vec e.kind none g d sd →
      step s = .next { u.enteredInner g d sd s.eflags s.eip none with ctx := Ctx.empty }) ∧
    ∀ g d t, u.entersTask e.vec e.kind g d → u.switchTo g.gateSel d .int s.eip s.eflags = .ok t →
      step s = .next { t.taskTrap (s.tssImage d.base) with ctx := Ctx.empty }

/-- The image of a TSS is what memory holds. -/
theorem tssImage_of_mem (h : u.mem = s.mem) (base : Dword) : u.tssImage base = s.tssImage base := by
  have hbyte : u.byteAt = s.byteAt := funext fun pa => congrArg (memGet · pa.toNat) h
  simp only [State.tssImage, hbyte]

/-- An event without error code, whose frame holds the flags as they are, is taken once it is acknowledged. -/
theorem takes_of_acknowledged (hr : s.resetPin = false) (herr : e.err = none) (hmem : u.mem = s.mem)
    (hflags : flagsImage u.eflags e.vec e.kind = s.eflags)
    (hack : s.pendingEvent = some e → Acknowledged e
      { s with inhibitSS := false, inhibitSTI := false, trapPending := s.trapPending && !s.inhibitSS } u) :
    s.takes e u := by
  intro he
  have hstep := step_event hr he
  have hack := hack he
  refine ⟨fun h => ?_, fun g d sd h => ?_, fun g d t h ht => ?_⟩
  · rw [← herr] at h
    have htaken := takeEvent_entered hack h
    rw [herr] at htaken
    exact hstep.trans htaken
  · rw [← herr] at h
    have htaken := takeEvent_inner hack h
    rw [herr, hflags] at htaken
    exact hstep.trans htaken
  · rw [← hflags] at ht
    have htaken := takeEvent_task hack h ht (by rw [herr]; rfl)
    rw [herr, tssImage_of_mem hmem] at htaken
    exact hstep.trans htaken

/-- A step in shutdown does nothing (70_reset_and_hazards.md R1116). -/
theorem step_shutdown (hr : s.resetPin = false) (hrun : s.run = .shutdown) : step s = .next s := by
  unfold step boundary
  rw [if_neg (ne_true_of_eq_false hr), if_pos hrun]

section

variable (hr : s.resetPin = false) (he : s.pendingEvent = none)
include hr he

/-- A step without an event, out of shutdown: the next instruction, or nothing while halted (60_exceptions.md R915). -/
theorem step_without_event (hlive : s.run ≠ .shutdown) :
    step s = if s.run = .running then runNext exec s.pastBoundary else .next s.pastBoundary := by
  unfold step boundary
  rw [if_neg (ne_true_of_eq_false hr), if_neg hlive]
  simp only [he, trap_not_due hlive (by simp [he])]
  cases s.run <;> rfl

/-- A step of a halted processor without an event ends the shadows (45_flag_misc.md R745). -/
theorem step_halted (hrun : s.run = .halted) : step s = .next s.pastBoundary :=
  (step_without_event hr he (by simp [hrun])).trans (if_neg (by simp [hrun]))

/-- A step of a running processor without an event runs the next instruction. -/
theorem step_running (hrun : s.run = .running) : step s = runNext exec s.pastBoundary :=
  (step_without_event hr he (by simp [hrun])).trans (if_pos hrun)

end

/-- Settles O47: the order is that of the tests of `pendingEvent`; then acknowledge and delivery. -/
theorem eventPriority : Obligations.EventPriority := by
  refine ⟨fun s => ⟨pendingEvent_inhibited, fun hss hrun => ⟨pendingEvent_trap hss hrun, pendingEvent_nmi hss hrun,
    fun v ht hn => pendingEvent_intr hss hrun ht (nmi_not_taken hn)⟩,
    fun ht hn => pendingEvent_none ht (nmi_not_taken hn)⟩, fun s hr => ?_⟩
  have hlost {e : Event} (he : s.pendingEvent = some e) (hno : e.taking ≠ .trap) :
      (s.trapPending && !s.inhibitSS) = false := by
    refine trap_not_due (fun hrun => ?_) fun e' he' => ?_
    · rw [pendingEvent_inhibited (.inr hrun)] at he
      cases he
    · rw [he] at he'
      cases he'
      exact hno
  refine ⟨takes_of_acknowledged hr rfl rfl rfl fun _ => acknowledged_trap,
    takes_of_acknowledged hr rfl rfl rfl fun he => ?_, fun v => takes_of_acknowledged hr rfl rfl rfl fun he => ?_,
    fun he hrun => step_halted hr he hrun, step_shutdown hr⟩
  · rw [hlost he nofun]
    exact acknowledged_nmi
  · rw [hlost he nofun]
    exact acknowledged_intr v

/-! ## Two exceptions -/

/-- The contributory exceptions (60_exceptions.md R970). -/
theorem vecClass_contributory : ∀ v : Byte,
    vecClass v = .contributory ↔ v = 0 ∨ v = 9 ∨ v = 10 ∨ v = 11 ∨ v = 12 ∨ v = 13 := by decide

/-- The page fault has a class of its own (60_exceptions.md R970). -/
theorem vecClass_pageFault : ∀ v : Byte, vecClass v = .pageFault ↔ v = 14 := by decide

/-- The pairs of classes that cannot be handled one after the other. -/
theorem doubles_iff (a b : ExcClass) : doubles a b = true ↔
    (a = .contributory ∧ b = .contributory) ∨ (a = .pageFault ∧ (b = .contributory ∨ b = .pageFault)) := by
  cases a <;> cases b <;> decide

/-- Settles O49: an exception that is not doubled is delivered as it is. -/
theorem doubleFaultPairs : Obligations.DoubleFaultPairs := by
  intro e x hkind hx
  have hclass : eventClass e = vecClass e.vec := if_pos hkind
  have hpair := doubles_iff (eventClass e) (vecClass x.vec)
  rw [hclass, vecClass_contributory, vecClass_contributory, vecClass_pageFault, vecClass_pageFault, ← hclass] at hpair
  by_cases hd : doubles (eventClass e) (vecClass x.vec) = true
  · have hnext : nextEvent e x = { vec := 8, kind := .exception, err := some 0, taking := .fault } := if_pos hd
    rw [hnext]
    exact ⟨iff_of_true rfl (hpair.mp hd), fun h => absurd rfl h⟩
  · have hnext : nextEvent e x = .ofFault x.vec x.err := if_neg hd
    rw [hnext]
    exact ⟨iff_of_false hx (mt hpair.mpr hd), fun _ => ⟨rfl, rfl⟩⟩

end Sys2Proof.Machine
end

section
/-! PROOFS. How an instruction is fetched from code that is ready, and the step that runs it (O3). -/

namespace Sys2Proof.Machine

variable {s : State} {bs : List Byte} {items : List Instr} {t : Tx}

/-- A byte of code in RAM. -/
theorem readCode_run {off : Dword} (hp : t.cur.pg = false)
    (hk : t.cur.kindAt (t.cur.segs.cs.base + off).toNat = .ram) :
    readCode off t = .ok (t.cur.byteAt (t.cur.segs.cs.base + off)) t :=
  bind_then (look_run _ t) <| bind_then (look_run _ t) <| bind_then (translate_run _ _ _ t hp) <|
    bind_then (readPhys_run _ t (by simpa using hk)) rfl

/-- Each byte of an instruction that is ready is fetched as it stands in memory (20_memory.md R204, R250). -/
theorem fetchByte_ready (h : t.cur.codeReady bs) {k : Nat} (hk : k < bs.length) : fetchByte k t = .ok bs[k] t := by
  obtain ⟨hpg, hover, -, hbytes, hready⟩ := h
  obtain ⟨hlimit, hreal, hstale, hram, -⟩ := hready k hk
  have hmay : t.cur.mayFetch k = true := by
    simp only [State.mayFetch, hover, decide_eq_true hlimit, Bool.not_false, Bool.true_and, Bool.or_eq_true,
      decide_eq_true_eq, or_assoc]
    exact hreal
  have hbyte : bs[k] = t.cur.byteAt (t.cur.segs.cs.base + (t.cur.eip + BitVec.ofNat 32 k)) := by
    rw [← BitVec.add_assoc, List.getElem_of_eq hbytes.symm hk]
    simp [addrsFrom]
  rw [BitVec.add_assoc] at hram
  rw [fetchByte_run hmay hstale, readCode_run hpg hram, hbyte]

/-- Fetching goes on, byte by byte, to the end of the instruction (30_encoding.md R302, R303). -/
theorem fetchLoop_ready (h : t.cur.codeReady bs) (hd : decode t.cur.decodeCtx bs = .ok (items, [])) (left : Nat) :
    ∀ fuel k, k + left = bs.length → left < fuel → fetchLoop fuel (bs.take k) t = .ok (items, bs.length) t := by
  induction left with
  | zero =>
    intro fuel k hk hf
    obtain ⟨fuel, rfl⟩ := Nat.exists_eq_succ_of_ne_zero hf.ne'
    rw [List.take_of_length_le (by omega)]
    refine bind_then (look_run _ t) ?_
    rw [hd]
    rfl
  | succ left ih =>
    intro fuel k hk hf
    obtain ⟨fuel, rfl⟩ := Nat.exists_eq_succ_of_ne_zero (Nat.ne_zero_of_lt hf)
    have hlt : k < bs.length := by omega
    obtain ⟨-, -, -, -, hready⟩ := id h
    obtain ⟨-, -, -, -, hshort⟩ := hready k hlt
    have hlen : (bs.take k).length = k := List.length_take_of_le hlt.le
    refine bind_then (look_run _ t) ?_
    rw [hshort]
    refine if_else (by omega) (bind_then (a := bs[k]) (t' := t) ?_ ?_)
    · rw [hlen]
      exact fetchByte_ready h hlt
    · rw [List.take_append_getElem hlt]
      exact ih fuel (k + 1) (by omega) (by omega)

/-- An instruction that is ready is fetched and decoded. -/
theorem fetchInstr_ready (h : t.cur.codeReady bs) (hd : decode t.cur.decodeCtx bs = .ok (items, [])) :
    fetchInstr t = .ok (items, bs.length) t := by
  obtain ⟨-, -, hlen, -⟩ := id h
  exact fetchLoop_ready h hd bs.length 16 0 (by omega) (by omega)

/-- An instruction without prefixes is its own only item. -/
theorem runItems_singleton (ex : Instr → State → Outcome) (i : Instr) (s : State) : runItems ex [i] s = ex i s := by
  unfold runItems
  cases ex i s <;> rfl

/-- Settles O3: the boundary takes nothing, so the instruction at CS:EIP is fetched and its items run. -/
theorem stepRunsDecodedInstruction : Obligations.StepRunsDecodedInstruction := by
  intro s bs items hr hrun he hready hd
  have hfetch : fetchInstr (Tx.start s.pastBoundary) = .ok (items, bs.length) (Tx.start s.pastBoundary) :=
    fetchInstr_ready hready hd
  have hnext : runNext exec s.pastBoundary = runItems exec items (s.fetched bs.length) := by
    unfold Tx.start at hfetch
    unfold runNext
    rw [hfetch]
    rfl
  have hstep := (step_running hr he hrun).trans hnext
  refine ⟨hstep, fun i hi => ?_⟩
  rw [hstep, hi, runItems_singleton]

end Sys2Proof.Machine
end

section
/-! PROOFS. A RESET request at the instruction boundary (O6). -/

namespace Sys2Proof.Machine

variable {s : State}

/-- RESET comes before shutdown, halt and every event (60_exceptions.md R915). -/
theorem step_resetPin (hr : s.resetPin = true) : step s = .next s.afterReset := by
  unfold step boundary
  exact if_pos hr

/-- Settles O6: the boundary tests RESET first, and what it then leaves is `State.afterReset`, field by field. -/
theorem resetRequestServed : Obligations.ResetRequestServed := fun _ hr => step_resetPin hr

end Sys2Proof.Machine
end
